-- ==== Sys2Proof/Word.lean ====
section
/-! DEFINITION. The widths the spec fixes (00_scope.md R7) under the names the model uses. -/

namespace Sys2Proof

/-- A bus word, a command word, a Feistel half: 32 bits. -/
abbrev Word := BitVec 32

/-- A block, an IV, a counter, a chaining value, a tag: 64 bits (R7). -/
abbrev Block := BitVec 64

/-- A subkey, an FO or FL half, a field operand: 16 bits (R7). -/
abbrev Half := BitVec 16

/-- A message byte, an S-box entry: 8 bits (R7). -/
abbrev Byte := BitVec 8

/-- The key: 128 bits (R7). -/
abbrev Key := BitVec 128

end Sys2Proof
end

