-- ==== Sys2Proof/Syntax.lean ====
section
/-! DEFINITION. The commands of the core: one constructor per row of spec/opcode_table.json
(30_encoding.md R81). -/

namespace Sys2Proof

/-- The field select F16 of format G (30_encoding.md R79). -/
inductive FieldSel where
  /-- F16 = 0: the degree-8 field, FPOLY8. -/
  | deg8
  /-- F16 = 1: the degree-16 field, FPOLY16. -/
  | deg16
deriving DecidableEq, Repr

/-- A command (30_encoding.md R81). No command word names a register; the only operand in a word
is F16 (R80). -/
inductive Instr where
  /-- 44_control.md R154 -/
  | nop
  /-- 41_block_primitive.md R114 -/
  | keyLoad
  /-- 41_block_primitive.md R115 -/
  | encBlock
  /-- 41_block_primitive.md R116 -/
  | decBlock
  /-- 43_modes.md R132 -/
  | start
  /-- 43_modes.md R133 -/
  | process
  /-- 43_modes.md R134 -/
  | final
  /-- 43_modes.md R135 -/
  | abort
  /-- 40_field_engine.md R97 -/
  | gfMul (f : FieldSel)
  /-- 40_field_engine.md R98 -/
  | gfInv (f : FieldSel)
  /-- 40_field_engine.md R99 -/
  | gfOrder (f : FieldSel)
  /-- 42_adapter.md R121 -/
  | segPop
  /-- 42_adapter.md R122 -/
  | segClear
  /-- 42_adapter.md R125 -/
  | rsmRewind
  /-- 44_control.md R155 -/
  | softReset
deriving DecidableEq, Repr

end Sys2Proof
end

