-- ==== Sys2Proof/WellFormed.lean ====
section
/-! DEFINITION. When the fields of a command word are well formed (30_encoding.md R78, R79, R81).
The syntax itself can hold no ill-formed command, so the checks stand on the fields a word is
made of; a command is well formed when the fields it is encoded with are (Decode.lean). -/

namespace Sys2Proof

/-- The fields of a 32-bit command word, bit 0 first: OPC is bits 7:0, F16 is bit 8 (a reserved bit
in format C), and RSV is bits 31:9 (R78, R79). -/
structure CommandFields where
  opc : BitVec 8
  f16 : BitVec 1
  rsv : BitVec 23
deriving DecidableEq, Repr

/-- The opcodes of format G (R79). -/
def fieldOpcodes : List (BitVec 8) := [0x20, 0x21, 0x22]

/-- The opcodes of format C (R78). -/
def plainOpcodes : List (BitVec 8) :=
  [0x00, 0x01, 0x02, 0x03, 0x10, 0x11, 0x12, 0x13, 0x30, 0x31, 0x32, 0xFF]

/-- Check 1: the opcode is assigned (R81). -/
def CommandFields.opcAssigned (c : CommandFields) : Bool :=
  c.opc ∈ plainOpcodes ++ fieldOpcodes

/-- Check 2: bits 31:9 are 0 (reserved in both formats, R78, R79). -/
def CommandFields.rsvZero (c : CommandFields) : Bool := c.rsv == 0

/-- Check 3: bit 8 is 0 unless the opcode is one of format G (R78). -/
def CommandFields.f16Allowed (c : CommandFields) : Bool :=
  c.f16 == 0 || c.opc ∈ fieldOpcodes

/-- The fields are those of one of the legal words (R82). -/
def CommandFields.wellFormed (c : CommandFields) : Bool :=
  c.opcAssigned && c.rsvZero && c.f16Allowed

end Sys2Proof
end

