-- ==== Sys2Proof/Decode.lean ====
section
/-! DEFINITION. The decoder of 30_encoding.md R82, total on any word and any bytes, rejecting by
name, and after it the encoder of R81. -/

namespace Sys2Proof

/-- Why a command word is ILLEGAL (30_encoding.md R82, R83). -/
inductive DecodeError where
  /-- The opcode, bits 7:0, is not in the table of R81. -/
  | unassignedOpcode
  /-- The opcode is assigned and a reserved bit is not 0. -/
  | reservedBits
  /-- The bytes are not those of exactly one 32-bit word (R77). -/
  | notOneWord
deriving DecidableEq, Repr

/-- OPC, bits 7:0 of a word (R78). -/
def opcOf (w : Word) : BitVec 8 := w.extractLsb' 0 8

/-- F16, bit 8 of a word (R79). -/
def fieldSelOf (w : Word) : FieldSel := if w.extractLsb' 8 1 = 0 then .deg8 else .deg16

/-- The command a word's opcode names, F16 read from bit 8 where the format has it (R81). -/
def rowOf (w : Word) : Option Instr :=
  if opcOf w = 0x00 then some .nop
  else if opcOf w = 0x01 then some .keyLoad
  else if opcOf w = 0x02 then some .encBlock
  else if opcOf w = 0x03 then some .decBlock
  else if opcOf w = 0x10 then some .start
  else if opcOf w = 0x11 then some .process
  else if opcOf w = 0x12 then some .final
  else if opcOf w = 0x13 then some .abort
  else if opcOf w = 0x20 then some (.gfMul (fieldSelOf w))
  else if opcOf w = 0x21 then some (.gfInv (fieldSelOf w))
  else if opcOf w = 0x22 then some (.gfOrder (fieldSelOf w))
  else if opcOf w = 0x30 then some .segPop
  else if opcOf w = 0x31 then some .segClear
  else if opcOf w = 0x32 then some .rsmRewind
  else if opcOf w = 0xFF then some .softReset
  else none

/-- The opcodes of format G: GF_MUL, GF_INV and GF_ORDER (R79). -/
def formatG (opc : BitVec 8) : Bool := opc == 0x20 || opc == 0x21 || opc == 0x22

/-- The reserved bits of a word are 0: bits 31:9 for an opcode of format G, bits 31:8 for any
other (R82). -/
def reservedZero (w : Word) : Bool :=
  if formatG (opcOf w) then w.extractLsb' 9 23 == 0 else w.extractLsb' 8 24 == 0

/-- R82: decoding a word is total; an ILLEGAL word is refused by name. -/
def decode (w : Word) : Except DecodeError Instr :=
  match rowOf w with
  | none => .error .unassignedOpcode
  | some i => if reservedZero w then .ok i else .error .reservedBits

/-- The four byte lanes of a bus word, lane 0 (bits 7:0) first (20_memory.md R63). -/
def lanesOf (w : Word) : List Byte :=
  [w.extractLsb' 0 8, w.extractLsb' 8 8, w.extractLsb' 16 8, w.extractLsb' 24 8]

/-- The decoder on bytes, lane 0 first: exactly one word (30_encoding.md R77). -/
def decodeBytes : List Byte → Except DecodeError Instr
  | [b0, b1, b2, b3] => decode (b3 ++ b2 ++ b1 ++ b0)
  | _ => .error .notOneWord

/-- The bit a field select is written as (R79). -/
def FieldSel.bit : FieldSel → BitVec 1
  | .deg8 => 0
  | .deg16 => 1

/-- The fields a command is encoded with (R81). -/
def Instr.fields : Instr → CommandFields
  | .nop => ⟨0x00, 0, 0⟩
  | .keyLoad => ⟨0x01, 0, 0⟩
  | .encBlock => ⟨0x02, 0, 0⟩
  | .decBlock => ⟨0x03, 0, 0⟩
  | .start => ⟨0x10, 0, 0⟩
  | .process => ⟨0x11, 0, 0⟩
  | .final => ⟨0x12, 0, 0⟩
  | .abort => ⟨0x13, 0, 0⟩
  | .gfMul f => ⟨0x20, f.bit, 0⟩
  | .gfInv f => ⟨0x21, f.bit, 0⟩
  | .gfOrder f => ⟨0x22, f.bit, 0⟩
  | .segPop => ⟨0x30, 0, 0⟩
  | .segClear => ⟨0x31, 0, 0⟩
  | .rsmRewind => ⟨0x32, 0, 0⟩
  | .softReset => ⟨0xFF, 0, 0⟩

/-- A command is well formed when its fields pass the three checks. -/
def Instr.wellFormed (i : Instr) : Bool := i.fields.wellFormed

/-- The word made of its fields (R78, R79). -/
def CommandFields.word (c : CommandFields) : Word := c.rsv ++ c.f16 ++ c.opc

/-- The encoder: the one command word of a command (R81). -/
def encode (i : Instr) : Word := i.fields.word

/-- The command the decoder reads from a table row's word w of nbits bits, every bit above nbits
being 0: the word is laid out in its byte lanes and given to `decodeBytes`. -/
def decodeTableWord (nbits w : Nat) : Option Instr :=
  match decodeBytes (lanesOf (BitVec.ofNat 32 (w % 2 ^ nbits))) with
  | .ok i => some i
  | .error _ => none

end Sys2Proof
end

