-- ==== Sys2Proof/Machine/Field.lean ====
section
/-! DEFINITION. The field functions of 40_field_engine.md R87 to R94, on unsigned integers read as
polynomials over GF(2). -/

namespace Sys2Proof.Machine

/-- R87: the degree of a nonzero polynomial, the index of its highest set bit. -/
def deg (x : Nat) : Nat := x.log2

/-- The part of R88's carry-less product that bit positions below k of b give. -/
def clmulBelow (a b : Nat) : Nat → Nat
  | 0 => 0
  | k + 1 => clmulBelow a b k ^^^ (if b.testBit k then a <<< k else 0)

/-- R88: the carry-less product, no bit dropped. -/
def clmul (a b : Nat) : Nat := clmulBelow a b (b.log2 + 1)

/-- R89's loop: bits n+k-1 down to n of x are cleared, each by a shifted P. -/
def reduceFrom (P n : Nat) : Nat → Nat → Nat
  | 0, x => x
  | k + 1, x => reduceFrom P n k (if x.testBit (n + k) then x ^^^ (P <<< k) else x)

/-- R89: the remainder of x divided by P, with n = deg(P). -/
def pmod (x P : Nat) : Nat := reduceFrom P (deg P) (x.log2 + 1 - deg P) x

/-- R90: the product modulo P. -/
def gfMul (a b P : Nat) : Nat := pmod (clmul a b) P

/-- `gfPow` over the k low bits of the exponent, by squaring (R91: "A model may compute it by
square-and-multiply; the value is the same"; log 12). -/
def gfPowBits (a P : Nat) : Nat → Nat → Nat
  | 0, _ => 1
  | k + 1, e =>
    let h := gfPowBits a P k (e / 2)
    if e % 2 = 1 then gfMul (gfMul h h P) a P else gfMul h h P

/-- R91: a to the power e modulo P. -/
def gfPow (a e P : Nat) : Nat := gfPowBits a P (if e = 0 then 0 else e.log2 + 1) e

/-- R92: a^(2^n - 2) modulo P, n = deg(P); 0 for an operand that reduces to 0. -/
def gfInv (a P : Nat) : Nat := gfPow a (2 ^ deg P - 2) P

/-- R93's loop, `left` values of k still to try, y being x^k (log 12). -/
def orderFrom (x P : Nat) : (left k y : Nat) → Nat
  | 0, _, _ => 0
  | left + 1, k, y => if y = 1 then k else orderFrom x P left (k + 1) (gfMul y x P)

/-- R93: the multiplicative order of a modulo P, or 0. -/
def gfOrder (a P : Nat) : Nat :=
  if pmod a P = 0 then 0 else orderFrom (pmod a P) P (2 ^ deg P - 1) 1 (pmod a P)

/-- R94: the tag multiply, zero-extended to 64 bits. -/
def tmul (a b : Block) (Pt : Nat) : Block := BitVec.ofNat 64 (pmod (clmul a.toNat b.toNat) Pt)

end Sys2Proof.Machine
end

