-- ==== Sys2Proof/Config.lean ====
section
/-! DEFINITION. What the spec leaves open and no definition may fix (00_scope.md R8, R13):
uninterpreted constants, so that nothing can be proved about their values. The parameter KEYMOD_C
is a field of State (log 5) and the parameter LAT is the place of the engine's move among a state's
inputs (log 2). -/

namespace Sys2Proof.Config

/-- The free values any(w) of 00_scope.md R13, one for each draw: any(w) is the low w bits.
DESIGN CHOICE (log 4), safe: no body, so a claim holds whatever is drawn. -/
opaque anyBits : Nat → BitVec 64

/-- The OPEN parameter CORE_BASE (00_scope.md R8; 20_memory.md R70): the bus address of offset 0 of
the window. DESIGN CHOICE (log 6), safe. -/
opaque coreBase : Nat

/-- KEYMOD_C's default of 00_scope.md R8, the value `State.reset` carries (log 5). -/
def keymodDefault : Key := 0x0123456789ABCDEFFEDCBA9876543210

end Sys2Proof.Config
end

