-- ==== Sys2Proof/Machine/State.lean ====
section
/-! DEFINITION. Everything the spec gives the machine (10_state.md), as plain data, and the state
after reset (70_reset_and_hazards.md R180). -/

namespace Sys2Proof.Machine

/-- The codes of ERRCODE.CODE (60_exceptions.md R161); 10 to 15 are never written and so have no
constructor. -/
inductive ErrCode where
  /-- 0: no error since reset or since ERRCODE was last written -/
  | none
  /-- 1: not a 32-bit access at a multiple of 4 -/
  | align
  /-- 2: a command word that decodes to ILLEGAL -/
  | badcmd
  /-- 3: a write while a command is in flight -/
  | busy
  /-- 4: a command in the wrong state -/
  | seq
  /-- 5: KEY_VALID = 0 -/
  | nokey
  /-- 6: a needed field polynomial is not valid -/
  | badfield
  /-- 7: START with MODE = 7 -/
  | badmode
  /-- 8: a write to a locked register in a session -/
  | locked
  /-- 9: a write to BYTE_IN with SEG_CNT = 8 -/
  | segfull
deriving DecidableEq, Repr

/-- One transaction of the host on the slave port (20_memory.md R60, R61, R62). The offset is the
port's 8-bit `addr`. -/
inductive BusAccess where
  /-- `MemRead(off, n)`: a read of n bytes at offset off (R61). -/
  | read (off : BitVec 8) (n : Nat)
  /-- `MemWrite`: write data v at offset off under the byte strobes; n = 4 of R62 is all four
  strobes set. -/
  | write (off : BitVec 8) (strb : BitVec 4) (v : Word)
deriving DecidableEq, Repr

/-- One move of an agent (00_scope.md R15; 70_reset_and_hazards.md R179, R191). -/
inductive Input where
  /-- The host makes one access. A command it issues and the core accepts stays in flight. -/
  | host (a : BusAccess)
  /-- The host makes one access, and a command it issues and the core accepts is completed at once:
  the shortest LAT, "immediately after the write that accepted it" (R191). -/
  | hostPrompt (a : BusAccess)
  /-- The engine completes the command in flight (60_exceptions.md R166). -/
  | engine
  /-- A hardware reset, by rst_n. `some a`: the host makes the access a while rst_n is asserted,
  which R179 leaves undefined. -/
  | hwReset (during : Option BusAccess)
deriving DecidableEq, Repr

/-- Which agent acts on a command in this step (the MODEL's own, log 3). -/
inductive Turn where
  /-- The host issues it: checks, then acceptance (60_exceptions.md R164). -/
  | host
  /-- The engine completes it (R166). -/
  | engine
  /-- The host issues it and, if it is accepted, the engine completes it in the same step. -/
  | prompt
deriving DecidableEq, Repr

/-- The key schedule: "derived per-round subkeys and substitution boxes computed from the master
key" (00_scope.md, glossary): SCHED (10_state.md R47) and SBOX1, SBOX2 (R48). -/
structure KeySchedule where
  kl1 : Vector Half 8
  kl2 : Vector Half 8
  ko1 : Vector Half 8
  ko2 : Vector Half 8
  ko3 : Vector Half 8
  ki1 : Vector Half 8
  ki2 : Vector Half 8
  ki3 : Vector Half 8
  sbox1 : Vector Byte 256
  sbox2 : Vector Byte 256
deriving DecidableEq, Repr

/-- The value the model names for the key schedule after reset, where 10_state.md R47 and R48 say
"unspecified": all zeros. DESIGN CHOICE (log 7), unsafe; R181 makes it unobservable. -/
def KeySchedule.zero : KeySchedule where
  kl1 := Vector.replicate 8 0
  kl2 := Vector.replicate 8 0
  ko1 := Vector.replicate 8 0
  ko2 := Vector.replicate 8 0
  ko3 := Vector.replicate 8 0
  ki1 := Vector.replicate 8 0
  ki2 := Vector.replicate 8 0
  ki3 := Vector.replicate 8 0
  sbox1 := Vector.replicate 256 0
  sbox2 := Vector.replicate 256 0

/-- The state of the core, its port, its parameters and the moves to come (10_state.md; INVENTORY.md
lists every field with its rule and reset value). -/
structure State where
  /-- CTRL (R27): MODE = 2:0, DIR = 3, TAGFSEL = 4 -/
  ctrl : BitVec 5
  /-- ERRCODE.CODE (R29) -/
  errcode : ErrCode
  /-- IRQ_EN (R30): DONE_EN, ERR_EN, AUTHFAIL_EN from bit 0 -/
  irqEn : BitVec 3
  /-- IRQ_STAT (R31): DONE, ERR, AUTHFAIL from bit 0 -/
  irqStat : BitVec 3
  /-- KEY0, key[31:0] (R32) -/
  key0 : Word
  /-- KEY1, key[63:32] (R32) -/
  key1 : Word
  /-- KEY2, key[95:64] (R32) -/
  key2 : Word
  /-- KEY3, key[127:96] (R32) -/
  key3 : Word
  /-- IV (R33) -/
  iv : Block
  /-- MSGLEN (R34) -/
  msglen : Block
  /-- DIN (R35) -/
  din : Block
  /-- DOUT (R36) -/
  dout : Block
  /-- BLKIDX (R37) -/
  blkidx : Block
  /-- SIGLEN (R38) -/
  siglen : Block
  /-- FPOLY8 (R39) -/
  fpoly8 : BitVec 9
  /-- FGEN8 (R40) -/
  fgen8 : BitVec 8
  /-- FPOLY16 (R39) -/
  fpoly16 : BitVec 17
  /-- FGEN16 (R40) -/
  fgen16 : BitVec 16
  /-- GF_A (R41) -/
  gfA : Half
  /-- GF_B (R41) -/
  gfB : Half
  /-- GF_R (R42) -/
  gfR : Half
  /-- KSIDX (R45): KIND = 5:3, ROUND = 2:0 -/
  ksidx : BitVec 6
  /-- SBOX_IDX (R46): BOX = 8, INDEX = 7:0 -/
  sboxIdx : BitVec 9
  /-- STATUS.KEY_VALID (R26) -/
  keyValid : Bool
  /-- STATUS.SESSION (R26, R49) -/
  session : Bool
  /-- STATUS.AUTH_VALID (R26) -/
  authValid : Bool
  /-- STATUS.AUTH_OK (R26) -/
  authOk : Bool
  /-- STATUS.INV0 (R26) -/
  inv0 : Bool
  /-- STATUS.SEG_CNT, 0 to 8 (R26, R53) -/
  segCnt : Fin 9
  /-- STATUS.RSM_IDX, 0 to 8 (R26, R54) -/
  rsmIdx : Fin 9
  /-- SCHED, SBOX1, SBOX2 (R47, R48) -/
  keys : KeySchedule
  /-- CHAIN (R50) -/
  chain : Block
  /-- TAGACC (R51) -/
  tagacc : Block
  /-- HSUB (R52) -/
  hsub : Block
  /-- ZBLK (R52) -/
  zblk : Block
  /-- SEGBUF (R53) -/
  segbuf : Block
  /-- PENDING (R55): the accepted command not yet completed; its word is `encode` of it (log 11) -/
  pending : Option Instr
  /-- The port's read data: what the last read returned (20_memory.md R60, R61; log 8) -/
  rdata : Word
  /-- The port's error response of the last access (60_exceptions.md R162; log 8) -/
  slverr : Bool
  /-- The OPEN parameter KEYMOD_C (00_scope.md R8; log 5); no step changes it -/
  keymodC : Key
  /-- The MODEL's own: how many values any(w) have been drawn (log 4) -/
  free : Nat
  /-- The MODEL's own: which agent acts in this step (log 3) -/
  turn : Turn
  /-- The MODEL's own: the moves still to come, oldest first (log 1) -/
  inputs : List Input
deriving DecidableEq, Repr

/-- The machine right after reset (70_reset_and_hazards.md R180). `keys`, `chain`, `tagacc`, `hsub`
and `zblk` are "unspecified" there and take the values of log 7; the ports take those of log 8, the
parameter KEYMOD_C its default (log 5), and the model's own fields the values of logs 1, 3 and 4. -/
def State.reset : State where
  ctrl := 0
  errcode := .none
  irqEn := 0
  irqStat := 0
  key0 := 0
  key1 := 0
  key2 := 0
  key3 := 0
  iv := 0
  msglen := 0
  din := 0
  dout := 0
  blkidx := 0
  siglen := 0
  fpoly8 := 0
  fgen8 := 0
  fpoly16 := 0
  fgen16 := 0
  gfA := 0
  gfB := 0
  gfR := 0
  ksidx := 0
  sboxIdx := 0
  keyValid := false
  session := false
  authValid := false
  authOk := false
  inv0 := false
  segCnt := 0
  rsmIdx := 0
  keys := .zero
  chain := 0
  tagacc := 0
  hsub := 0
  zblk := 0
  segbuf := 0
  pending := .none
  rdata := 0
  slverr := false
  keymodC := Config.keymodDefault
  free := 0
  turn := .prompt
  inputs := []

/-- Why the machine stops. -/
inductive Fault where
  /-- Raised by a step whose move is a hardware reset with a bus access inside it: "A bus access
  during a hardware reset is not defined" (70_reset_and_hazards.md R179; 93 S13). Safe: the model
  stops where a chip goes on (log 9). -/
  | accessDuringReset
deriving DecidableEq, Repr

/-- Why a command has no meaning in the model. -/
inductive Refusal where
  /-- Raised by an arm of `exec` whose command has no meaning yet; no arm is left so. Safe: the model
  stops where a chip goes on. -/
  | notModelled (mnemonic : String)
deriving DecidableEq, Repr

end Sys2Proof.Machine
end

