-- ==== Sys2Proof/Machine/Operands.lean ====
section
/-! DEFINITION. The operands of the commands: the key joined from its words, the fields of CTRL, the
polynomial each use takes, the halves of a 64-bit register, and the bytes of a block. -/

namespace Sys2Proof.Machine

/-- The modes of CTRL.MODE (10_state.md R27; 43_modes.md R130). -/
inductive Mode where
  | ecb | cbc | pcbc | cfb | ofb | ctr
  /-- MODE = 6, the authenticated (GCM-style) mode -/
  | gcm
  /-- MODE = 7, which START rejects with BADMODE -/
  | reserved
deriving DecidableEq, Repr

/-- CTRL.DIR (10_state.md R27). -/
inductive Direction where
  | encrypt | decrypt
deriving DecidableEq, Repr

/-- The mode a 3-bit MODE field names (10_state.md R27). -/
def Mode.ofBits (m : BitVec 3) : Mode :=
  if m = 0 then .ecb
  else if m = 1 then .cbc
  else if m = 2 then .pcbc
  else if m = 3 then .cfb
  else if m = 4 then .ofb
  else if m = 5 then .ctr
  else if m = 6 then .gcm
  else .reserved

/-- CTRL.MODE, bits 2:0 (R27). -/
def State.mode (s : State) : Mode := Mode.ofBits (s.ctrl.extractLsb' 0 3)

/-- CTRL.DIR, bit 3 (R27). -/
def State.dir (s : State) : Direction := if s.ctrl.getLsbD 3 then .decrypt else .encrypt

/-- CTRL.TAGFSEL, bit 4 (R27): the field of the authentication tag. -/
def State.tagField (s : State) : FieldSel := if s.ctrl.getLsbD 4 then .deg8 else .deg16

/-- The 128-bit key (R19). -/
def State.key (s : State) : Key := s.key3 ++ s.key2 ++ s.key1 ++ s.key0

/-- The polynomial a field select names (40_field_engine.md R96). -/
def State.poly (s : State) : FieldSel → Nat
  | .deg8 => s.fpoly8.toNat
  | .deg16 => s.fpoly16.toNat

/-- A polynomial register is valid when its top bit is 1 (10_state.md R39; 40_field_engine.md R95). -/
def State.polyValid (s : State) : FieldSel → Bool
  | .deg8 => s.fpoly8.getLsbD 8
  | .deg16 => s.fpoly16.getLsbD 16

/-- The tag polynomial: FPOLY16 when TAGFSEL = 0, FPOLY8 when TAGFSEL = 1 (40_field_engine.md R94). -/
def State.tagPoly (s : State) : Nat := s.poly s.tagField

/-- NAME_LO, bits 31:0 of a 64-bit register (10_state.md R19). -/
def loWord (b : Block) : Word := b.extractLsb' 0 32

/-- NAME_HI, bits 63:32 of a 64-bit register (R19). -/
def hiWord (b : Block) : Word := b.extractLsb' 32 32

/-- Writing NAME_LO leaves NAME_HI unchanged (R19). -/
def setLo (b : Block) (v : Word) : Block := hiWord b ++ v

/-- Writing NAME_HI leaves NAME_LO unchanged (R19). -/
def setHi (b : Block) (v : Word) : Block := v ++ loWord b

/-- The byte at position j of a block, position 0 the most significant (20_memory.md R64). -/
def blockByte (b : Block) (j : Nat) : Byte := b.extractLsb' (56 - 8 * j) 8

/-- A byte at position j of an otherwise zero block (R64). -/
def byteAt (v : Byte) (j : Nat) : Block := v.setWidth 64 <<< (56 - 8 * j)

end Sys2Proof.Machine
end

