-- ==== Sys2Proof/Machine/Flags.lean ====
section
/-! DEFINITION. Every flag of the core: the STATUS word with its stored and computed fields
(10_state.md R26), the error code as software reads it (60_exceptions.md R161), the bits of
IRQ_STAT (R31) and the interrupt line (60_exceptions.md R168). -/

namespace Sys2Proof.Machine

/-- The 4-bit code ERRCODE.CODE holds (60_exceptions.md R161). -/
def ErrCode.code : ErrCode → BitVec 4
  | .none => 0
  | .align => 1
  | .badcmd => 2
  | .busy => 3
  | .seq => 4
  | .nokey => 5
  | .badfield => 6
  | .badmode => 7
  | .locked => 8
  | .segfull => 9

/-- IRQ_STAT.DONE (10_state.md R31). -/
def irqDone : BitVec 3 := 0b001

/-- IRQ_STAT.ERR (R31). -/
def irqErr : BitVec 3 := 0b010

/-- IRQ_STAT.AUTHFAIL (R31). -/
def irqAuthFail : BitVec 3 := 0b100

/-- STATUS.BUSY: "PENDING ≠ none exactly when STATUS.BUSY = 1" (10_state.md R55). -/
def State.busy (s : State) : Bool := s.pending.isSome

/-- STATUS.LAST: "computed, not stored: SESSION & (reg[BLKIDX] == reg[MSGLEN])" (R26). -/
def State.last (s : State) : Bool := s.session && s.blkidx == s.msglen

/-- STATUS bits 6:1 with no command in flight: KEY_VALID, SESSION, LAST, AUTH_VALID, AUTH_OK and
INV0 from bit 1 up (R26). -/
def State.statusFlags (s : State) : BitVec 6 :=
  BitVec.ofBool s.inv0 ++ BitVec.ofBool s.authOk ++ BitVec.ofBool s.authValid ++
    BitVec.ofBool s.last ++ BitVec.ofBool s.session ++ BitVec.ofBool s.keyValid

/-- STATUS bits 15:8: RSM_IDX above SEG_CNT (R26). -/
def State.statusCounts (s : State) : BitVec 8 :=
  BitVec.ofNat 4 s.rsmIdx.val ++ BitVec.ofNat 4 s.segCnt.val

/-- The STATUS word of its fields: bits 31:16 and bit 7 are reserved and read 0 (R26). -/
def statusWord (counts : BitVec 8) (flags : BitVec 6) (busy : Bool) : Word :=
  (0 : BitVec 16) ++ counts ++ (0 : BitVec 1) ++ flags ++ BitVec.ofBool busy

/-- The interrupt output: the OR of IRQ_STAT & IRQ_EN (60_exceptions.md R168). -/
def State.irq (s : State) : Bool := s.irqStat &&& s.irqEn != 0

end Sys2Proof.Machine
end

