-- ==== Sys2Proof/Machine/Checks.lean ====
section
/-! DEFINITION. The checks on an issued command after BUSY and BADCMD, in the order of
60_exceptions.md R165: SEQ, NOKEY, BADFIELD, BADMODE. -/

namespace Sys2Proof.Machine

/-- The code of the first check that fails (R165: "The first check that fails decides the code"). -/
def firstFailure : List (Bool × ErrCode) → Option ErrCode
  | [] => none
  | (fails, code) :: rest => if fails then some code else firstFailure rest

/-- The checks ENC_BLOCK and DEC_BLOCK share (41_block_primitive.md R115, R116). -/
def blockChecks (s : State) : List (Bool × ErrCode) :=
  [(s.session, .seq), (!s.keyValid, .nokey), (!s.polyValid .deg16, .badfield)]

/-- The checks of START (43_modes.md R132): those of the block commands, the tag polynomial in mode 6,
and MODE = 7. -/
def startChecks (s : State) : List (Bool × ErrCode) :=
  [(s.session, .seq), (!s.keyValid, .nokey),
    (!s.polyValid .deg16 || (s.mode == .gcm && !s.polyValid s.tagField), .badfield),
    (s.mode == .reserved, .badmode)]

/-- Checks 3 to 6 of R165 for each command; `none` when every one passes. -/
def issueCheck (i : Instr) (s : State) : Option ErrCode :=
  match i with
  | .nop => none
  | .keyLoad => firstFailure [(s.session, .seq)]
  | .encBlock => firstFailure (blockChecks s)
  | .decBlock => firstFailure (blockChecks s)
  | .start => firstFailure (startChecks s)
  | .process => firstFailure [(!s.session || s.blkidx == s.msglen, .seq)]
  | .final => firstFailure [(!s.session || s.blkidx != s.msglen, .seq)]
  | .abort => none
  | .gfMul f => firstFailure [(!s.polyValid f, .badfield)]
  | .gfInv f => firstFailure [(!s.polyValid f, .badfield)]
  | .gfOrder f => firstFailure [(!s.polyValid f, .badfield)]
  | .segPop => firstFailure [(s.segCnt == 0, .seq)]
  | .segClear => none
  | .rsmRewind => none
  | .softReset => none

/-- Every check of R165 on a decoded command other than SOFT_RESET: BUSY first. -/
def State.failingCheck (s : State) (i : Instr) : Option ErrCode :=
  if s.busy then some .busy else issueCheck i s

end Sys2Proof.Machine
end

