-- ==== Sys2Proof/Machine/Ops.lean ====
section
/-! DEFINITION. The shared operations: rejection, the one way this core takes an error
(60_exceptions.md R162), and the host's acknowledgement beside it (R171); free values; reset
(70_reset_and_hazards.md R180); the acceptance and the completion of a command (R164, R166). -/

namespace Sys2Proof.Machine

/-- R162: a rejection with code c: the code, IRQ_STAT.ERR, and nothing else. -/
def State.reject (s : State) (c : ErrCode) : State :=
  { s with errcode := c, irqStat := s.irqStat ||| irqErr }

/-- The rejection of an access with code ALIGN: slverr answers it as well (R162; 20_memory.md R66). -/
def State.rejectAlign (s : State) : State := { s.reject .align with slverr := true }

/-- R171: the host's write of v to IRQ_STAT clears the bits written 1 (10_state.md R31). -/
def State.ackIrq (s : State) (v : Word) : State :=
  { s with irqStat := s.irqStat &&& ~~~(v.extractLsb' 0 3) }

/-- R163, R171: any write to ERRCODE sets CODE to 0. -/
def State.clearError (s : State) : State := { s with errcode := .none }

/-- The next free value any(64) (00_scope.md R13); any(w) is its low w bits (log 4). -/
def State.anyNext (s : State) : BitVec 64 := Config.anyBits s.free

/-- One free value has been drawn. -/
def State.drawn (s : State) : State := { s with free := s.free + 1 }

/-- 70_reset_and_hazards.md R180: every state element at its reset value. The port's last response,
the parameter KEYMOD_C ("not state; unchanged") and the model's own fields stay. -/
def State.resetCore (s : State) : State :=
  { State.reset with
    rdata := s.rdata, slverr := s.slverr, keymodC := s.keymodC, free := s.free, turn := s.turn,
    inputs := s.inputs }

/-- R164: an accepted command: PENDING takes it and so BUSY is 1. -/
def State.accept (s : State) (i : Instr) : State := { s with pending := some i }

/-- R166, after the command's own effect: PENDING <- none, so BUSY <- 0, and IRQ_STAT.DONE <- 1. -/
def State.complete (s : State) : State :=
  { s with pending := none, irqStat := s.irqStat ||| irqDone }

/-- A command writes DOUT: RSM_IDX goes to 0 in the same step (42_adapter.md R124). -/
def State.setDout (s : State) (v : Block) : State := { s with dout := v, rsmIdx := 0 }

/-- A command other than SOFT_RESET, with its effect at completion. The host's turn is its issue
(R164): the first failing check rejects it, else it is in flight. The engine's turn is its completion
(R166), which never fails. In the prompt turn an accepted command completes in the same step
(70_reset_and_hazards.md R191; log 3). -/
def State.command (s : State) (i : Instr) (effect : State → State) :
    Host.Outcome State Fault Refusal :=
  match s.turn with
  | .engine => .next (effect s).complete
  | .host =>
    match s.failingCheck i with
    | some c => .next (s.reject c)
    | none => .next (s.accept i)
  | .prompt =>
    match s.failingCheck i with
    | some c => .next (s.reject c)
    | none => .next (effect (s.accept i)).complete

end Sys2Proof.Machine
end

