-- ==== Sys2Proof/Machine/Adapter.lean ====
section
/-! DEFINITION. The adapter's hardware (42_adapter.md R120 to R126): segmenter, reassembler and the
significant length. -/

namespace Sys2Proof.Machine

/-- R120: an accepted byte goes to position SEG_CNT of SEGBUF; 20_memory.md R62 rejects it with SEGFULL
when SEG_CNT is 8. -/
def State.byteIn (s : State) (v : Byte) : State :=
  if h : s.segCnt.val < 8 then
    { s with segbuf := s.segbuf ||| byteAt v s.segCnt.val, segCnt := ⟨s.segCnt.val + 1, by omega⟩ }
  else s.reject .segfull

/-- R123: a read of BYTE_OUT with no command in flight: the next byte of DOUT, then 0 for ever. -/
def State.byteOut (s : State) : State :=
  if h : s.rsmIdx.val < 8 then
    { s with
      rdata := (blockByte s.dout s.rsmIdx.val).setWidth 32
      rsmIdx := ⟨s.rsmIdx.val + 1, by omega⟩ }
  else { s with rdata := 0 }

/-- The zero bytes at the end of y, looking at no more than the given number of positions. -/
def trailingZeroBytesIn : Nat → Block → Nat
  | 0, _ => 0
  | k + 1, y => if y.extractLsb' 0 8 = 0 then trailingZeroBytesIn k (y >>> 8) + 1 else 0

/-- R126: the number of trailing zero bytes of a nonzero block, 0 to 7. -/
def trailingZeroBytes (y : Block) : Nat := trailingZeroBytesIn 7 y

/-- R126: SIGLEN after a session's block i had the output y. -/
def siglenAfter (siglen i y : Block) : Block :=
  if y = 0 then siglen else BitVec.ofNat 64 (8 * i.toNat + 8 - trailingZeroBytes y)

/-- R121: DIN <- SEGBUF, and the segmenter is emptied. -/
def segPopEffect (s : State) : State := { s with din := s.segbuf, segbuf := 0, segCnt := 0 }

/-- R122: the segmenter is emptied. -/
def segClearEffect (s : State) : State := { s with segbuf := 0, segCnt := 0 }

/-- R125: RSM_IDX <- 0. -/
def rsmRewindEffect (s : State) : State := { s with rsmIdx := 0 }

/-- R121: SEG_POP. -/
def execSegPop (s : State) : Host.Outcome State Fault Refusal := s.command .segPop segPopEffect

/-- R122: SEG_CLEAR. -/
def execSegClear (s : State) : Host.Outcome State Fault Refusal := s.command .segClear segClearEffect

/-- R125: RSM_REWIND. -/
def execRsmRewind (s : State) : Host.Outcome State Fault Refusal :=
  s.command .rsmRewind rsmRewindEffect

end Sys2Proof.Machine
end

