-- ==== Sys2Proof/Machine/Registers.lean ====
section
/-! DEFINITION. The register map (10_state.md R18): names, offsets, and the classes of registers that
the bus rules name (R20 to R24). -/

namespace Sys2Proof.Machine

/-- The registers of the map (R18). -/
inductive Reg where
  | id | status | ctrl | cmd | errcode | irqEn | irqStat
  | key0 | key1 | key2 | key3
  | ivLo | ivHi | msglenLo | msglenHi
  | dinLo | dinHi | doutLo | doutHi
  | blkidxLo | blkidxHi | siglenLo | siglenHi
  | fpoly8 | fgen8 | fpoly16 | fgen16
  | gfA | gfB | gfR
  | byteIn | byteOut
  | ksidx | ksdata | sboxIdx | sboxData
deriving DecidableEq, Repr

/-- The offset of each register (R18). -/
def Reg.offset : Reg → BitVec 8
  | .id => 0x00
  | .status => 0x04
  | .ctrl => 0x08
  | .cmd => 0x0C
  | .errcode => 0x10
  | .irqEn => 0x14
  | .irqStat => 0x18
  | .key0 => 0x20
  | .key1 => 0x24
  | .key2 => 0x28
  | .key3 => 0x2C
  | .ivLo => 0x30
  | .ivHi => 0x34
  | .msglenLo => 0x38
  | .msglenHi => 0x3C
  | .dinLo => 0x40
  | .dinHi => 0x44
  | .doutLo => 0x48
  | .doutHi => 0x4C
  | .blkidxLo => 0x50
  | .blkidxHi => 0x54
  | .siglenLo => 0x58
  | .siglenHi => 0x5C
  | .fpoly8 => 0x60
  | .fgen8 => 0x64
  | .fpoly16 => 0x68
  | .fgen16 => 0x6C
  | .gfA => 0x70
  | .gfB => 0x74
  | .gfR => 0x78
  | .byteIn => 0x80
  | .byteOut => 0x84
  | .ksidx => 0x88
  | .ksdata => 0x8C
  | .sboxIdx => 0x90
  | .sboxData => 0x94

/-- Every register, in the order of the map. -/
def Reg.all : List Reg :=
  [.id, .status, .ctrl, .cmd, .errcode, .irqEn, .irqStat, .key0, .key1, .key2, .key3, .ivLo, .ivHi,
    .msglenLo, .msglenHi, .dinLo, .dinHi, .doutLo, .doutHi, .blkidxLo, .blkidxHi, .siglenLo,
    .siglenHi, .fpoly8, .fgen8, .fpoly16, .fgen16, .gfA, .gfB, .gfR, .byteIn, .byteOut, .ksidx,
    .ksdata, .sboxIdx, .sboxData]

/-- The register at an offset; `none` at a reserved one (R18, R20). -/
def Reg.ofOffset (off : BitVec 8) : Option Reg := Reg.all.find? fun r => r.offset == off

/-- The RO registers of R21, writes to which are ignored. ERRCODE is not one: any write clears it. -/
def Reg.readOnly : Reg → Bool
  | .id | .status | .doutLo | .doutHi | .blkidxLo | .blkidxHi | .siglenLo | .siglenHi | .gfR
  | .byteOut | .ksdata | .sboxData => true
  | _ => false

/-- The WO registers of R21, reads of which return 0. -/
def Reg.writeOnly : Reg → Bool
  | .cmd | .byteIn => true
  | _ => false

/-- The locked registers (R22). -/
def Reg.locked : Reg → Bool
  | .ctrl | .key0 | .key1 | .key2 | .key3 | .ivLo | .ivHi | .msglenLo | .msglenHi | .fpoly8 | .fgen8
  | .fpoly16 | .fgen16 => true
  | _ => false

/-- The result registers, unspecified while BUSY = 1 (R24). -/
def Reg.isResult : Reg → Bool
  | .doutLo | .doutHi | .gfR | .blkidxLo | .blkidxHi | .siglenLo | .siglenHi | .ksdata | .sboxData
  | .byteOut => true
  | _ => false

/-- The registers a write reaches even while BUSY = 1 (R23; 20_memory.md R62). -/
def Reg.busyExempt : Reg → Bool
  | .errcode | .irqEn | .irqStat => true
  | _ => false

/-- ID reads the constant 0x46454937, "FEI7" (R25). -/
def coreId : Word := 0x46454937

/-- The bus address of an offset (20_memory.md R59). -/
def busAddress (off : BitVec 8) : Nat := Config.coreBase + off.toNat

/-- The offset a bus address has in the window; `none` outside it: "The core does not decode addresses
outside its window" (20_memory.md R70; log 6). -/
def windowOffset (addr : Nat) : Option (BitVec 8) :=
  if Config.coreBase ≤ addr ∧ addr < Config.coreBase + 256 then
    some (BitVec.ofNat 8 (addr - Config.coreBase))
  else none

end Sys2Proof.Machine
end

