-- ==== Sys2Proof/Machine/Bus.lean ====
section
/-! DEFINITION. The host's reads (20_memory.md R61), and its writes to every register but CMD (R62);
the write to CMD is in Machine/Issue.lean. -/

namespace Sys2Proof.Machine

/-- The subkey arrays in the order of KIND (10_state.md R45). -/
def KeySchedule.kind (ks : KeySchedule) (k : BitVec 3) : Vector Half 8 :=
  if k = 0 then ks.kl1
  else if k = 1 then ks.kl2
  else if k = 2 then ks.ko1
  else if k = 3 then ks.ko2
  else if k = 4 then ks.ko3
  else if k = 5 then ks.ki1
  else if k = 6 then ks.ki2
  else ks.ki3

/-- The subkey KSIDX selects: KIND = 5:3, ROUND = 2:0 (R45). -/
def State.subkeyAt (s : State) : Half :=
  (s.keys.kind (s.ksidx.extractLsb' 3 3))[(s.ksidx.extractLsb' 0 3).toNat]'(BitVec.isLt _)

/-- The S-box entry SBOX_IDX selects: BOX = 8, INDEX = 7:0 (R46). -/
def State.sboxEntryAt (s : State) : Byte :=
  (if s.sboxIdx.getLsbD 8 then s.keys.sbox2 else s.keys.sbox1)[(s.sboxIdx.extractLsb' 0 8).toNat]'(BitVec.isLt _)

/-- A read that returns v (R61). -/
def State.respond (s : State) (v : Word) : State := { s with rdata := v }

/-- A read that returns any(w), zero-extended (00_scope.md R13). -/
def State.respondAny (s : State) (w : Nat) : State :=
  { s.drawn with rdata := (s.anyNext.setWidth w).setWidth 32 }

/-- STATUS read while BUSY = 1: bit 0 is 1, bits 6:1 and 15:8 are free, the rest 0 (10_state.md R24; log 13). -/
def State.respondBusyStatus (s : State) : State :=
  { s.drawn with rdata := statusWord (s.anyNext.extractLsb' 8 8) (s.anyNext.extractLsb' 0 6) true }

/-- The read of a register with no command in flight, and of any other register while one is
(10_state.md R25 to R46). -/
def State.readReg (s : State) : Reg → State
  | .id => s.respond coreId
  | .status => s.respond (statusWord s.statusCounts s.statusFlags s.busy)
  | .ctrl => s.respond (s.ctrl.setWidth 32)
  | .cmd => s.respond 0
  | .errcode => s.respond (s.errcode.code.setWidth 32)
  | .irqEn => s.respond (s.irqEn.setWidth 32)
  | .irqStat => s.respond (s.irqStat.setWidth 32)
  | .key0 => s.respond s.key0
  | .key1 => s.respond s.key1
  | .key2 => s.respond s.key2
  | .key3 => s.respond s.key3
  | .ivLo => s.respond (loWord s.iv)
  | .ivHi => s.respond (hiWord s.iv)
  | .msglenLo => s.respond (loWord s.msglen)
  | .msglenHi => s.respond (hiWord s.msglen)
  | .dinLo => s.respond (loWord s.din)
  | .dinHi => s.respond (hiWord s.din)
  | .doutLo => s.respond (loWord s.dout)
  | .doutHi => s.respond (hiWord s.dout)
  | .blkidxLo => s.respond (loWord s.blkidx)
  | .blkidxHi => s.respond (hiWord s.blkidx)
  | .siglenLo => s.respond (loWord s.siglen)
  | .siglenHi => s.respond (hiWord s.siglen)
  | .fpoly8 => s.respond (s.fpoly8.setWidth 32)
  | .fgen8 => s.respond (s.fgen8.setWidth 32)
  | .fpoly16 => s.respond (s.fpoly16.setWidth 32)
  | .fgen16 => s.respond (s.fgen16.setWidth 32)
  | .gfA => s.respond (s.gfA.setWidth 32)
  | .gfB => s.respond (s.gfB.setWidth 32)
  | .gfR => s.respond (s.gfR.setWidth 32)
  | .byteIn => s.respond 0
  | .byteOut => s.byteOut
  | .ksidx => s.respond (s.ksidx.setWidth 32)
  | .ksdata => if s.keyValid then s.respond (s.subkeyAt.setWidth 32) else s.respondAny 16
  | .sboxIdx => s.respond (s.sboxIdx.setWidth 32)
  | .sboxData => if s.keyValid then s.respond (s.sboxEntryAt.setWidth 32) else s.respondAny 8

/-- The access is a 32-bit one at a multiple of 4 (20_memory.md R66). -/
def aligned (off : BitVec 8) (n : Nat) : Bool := n == 4 && off.toNat % 4 == 0

/-- R61: `MemRead(off, n)`, the first condition that applies deciding. -/
def State.busRead (s : State) (off : BitVec 8) (n : Nat) : State :=
  if !aligned off n then s.rejectAlign.respondAny 32
  else
    match Reg.ofOffset off with
    | none => s.respond 0
    | some r =>
      if r.writeOnly then s.respond 0
      else if s.busy && r == .status then s.respondBusyStatus
      else if s.busy && r.isResult then s.respondAny 32
      else s.readReg r

/-- The number of bytes a write's strobes ask for: 4 only when all are set (R62). -/
def strobeWidth (strb : BitVec 4) : Nat := if strb = 0b1111 then 4 else 0

/-- The effect of an accepted write of v on each register, reserved bits discarded (10_state.md R20,
R27 to R46). CMD and the read-only registers have none here. -/
def State.writeReg (s : State) (v : Word) : Reg → State
  | .ctrl => { s with ctrl := v.extractLsb' 0 5 }
  | .errcode => s.clearError
  | .irqEn => { s with irqEn := v.extractLsb' 0 3 }
  | .irqStat => s.ackIrq v
  | .key0 => { s with key0 := v, keyValid := false }
  | .key1 => { s with key1 := v, keyValid := false }
  | .key2 => { s with key2 := v, keyValid := false }
  | .key3 => { s with key3 := v, keyValid := false }
  | .ivLo => { s with iv := setLo s.iv v }
  | .ivHi => { s with iv := setHi s.iv v }
  | .msglenLo => { s with msglen := setLo s.msglen v }
  | .msglenHi => { s with msglen := setHi s.msglen v }
  | .dinLo => { s with din := setLo s.din v }
  | .dinHi => { s with din := setHi s.din v }
  | .fpoly8 => { s with fpoly8 := v.extractLsb' 0 9 }
  | .fgen8 => { s with fgen8 := v.extractLsb' 0 8 }
  | .fpoly16 => { s with fpoly16 := v.extractLsb' 0 17 }
  | .fgen16 => { s with fgen16 := v.extractLsb' 0 16 }
  | .gfA => { s with gfA := v.extractLsb' 0 16 }
  | .gfB => { s with gfB := v.extractLsb' 0 16 }
  | .byteIn => s.byteIn (v.extractLsb' 0 8)
  | .ksidx => { s with ksidx := v.extractLsb' 0 6 }
  | .sboxIdx => { s with sboxIdx := v.extractLsb' 0 9 }
  | .cmd | .id | .status | .doutLo | .doutHi | .blkidxLo | .blkidxHi | .siglenLo | .siglenHi | .gfR
  | .byteOut | .ksdata | .sboxData => s

/-- R62 below its CMD line: the write of v to a register other than CMD that is not read-only, the
first condition that applies deciding. SEGFULL is `State.byteIn`'s own check. -/
def State.busWriteReg (s : State) (r : Reg) (v : Word) : State :=
  if s.busy && !r.busyExempt then s.reject .busy
  else if s.session && r.locked then s.reject .locked
  else s.writeReg v r

end Sys2Proof.Machine
end

