-- ==== Sys2Proof/Machine/Cipher.lean ====
section
/-! DEFINITION. The block primitive as functions (41_block_primitive.md R101 to R111): the key
schedule, the S-box generator, the round functions and the network in both directions. -/

namespace Sys2Proof.Machine

/-- R101: word i of a key, index 0 the most significant. -/
def keyWord (k : Key) (i : Nat) : Half := k.extractLsb' (112 - 16 * i) 16

/-- 20_memory.md R65: byte j of a key, index 0 the most significant. -/
def keyByte (k : Key) (j : Nat) : Byte := k.extractLsb' (120 - 8 * j) 8

/-- R102: the modified key. -/
def modifiedKey (k c : Key) : Key := k ^^^ c

/-- One round of R105: advance the running sum j, then swap. -/
def sboxRound (k : Key) (st : Vector Byte 256 × Byte) (i : Fin 256) : Vector Byte 256 × Byte :=
  let j := st.2 + st.1[i] + keyByte k (i.val % 16)
  (st.1.swap i.val j.toNat i.isLt j.isLt, j)

/-- R105's start: the identity byte sequence. -/
def identityBox : Vector Byte 256 := Vector.ofFn fun v => BitVec.ofNat 8 v.val

/-- R105: the S-box of a key. -/
def generateSbox (k : Key) : Vector Byte 256 :=
  ((List.finRange 256).foldl (sboxRound k) (identityBox, 0)).1

/-- R103, R104: the key schedule of a key under KEYMOD_C = c: the eight subkey arrays and the two
S-boxes. -/
def deriveSchedule (k c : Key) : KeySchedule :=
  let k' := modifiedKey k c
  { kl1 := Vector.ofFn fun i => (keyWord k i.val).rotateLeft 1
    kl2 := Vector.ofFn fun i => keyWord k' ((i.val + 2) % 8)
    ko1 := Vector.ofFn fun i => (keyWord k ((i.val + 1) % 8)).rotateLeft 5
    ko2 := Vector.ofFn fun i => (keyWord k ((i.val + 5) % 8)).rotateLeft 8
    ko3 := Vector.ofFn fun i => (keyWord k ((i.val + 6) % 8)).rotateLeft 13
    ki1 := Vector.ofFn fun i => keyWord k' ((i.val + 4) % 8)
    ki2 := Vector.ofFn fun i => keyWord k' ((i.val + 3) % 8)
    ki3 := Vector.ofFn fun i => keyWord k' ((i.val + 7) % 8)
    sbox1 := generateSbox k
    sbox2 := generateSbox k' }

/-- R106: FI. The lookups depend on ki alone. -/
def fi (ks : KeySchedule) (x ki : Half) : Half :=
  (ks.sbox1[(ki.extractLsb' 8 8).toNat]'(BitVec.isLt _) ++
    ks.sbox2[(ki.extractLsb' 0 8).toNat]'(BitVec.isLt _)) ^^^ (x >>> 2)

/-- One sub-round of R107 on the halves (l, rt). -/
def foRound (ks : KeySchedule) (ko ki : Half) (h : Half × Half) : Half × Half :=
  (h.2, fi ks (h.1 ^^^ ko) ki ^^^ h.2)

/-- R107: FO, three sub-rounds. -/
def fo (ks : KeySchedule) (x : Word) (r : Fin 8) : Word :=
  let h1 := foRound ks ks.ko1[r] ks.ki1[r] (x.extractLsb' 16 16, x.extractLsb' 0 16)
  let h2 := foRound ks ks.ko2[r] ks.ki2[r] h1
  let h3 := foRound ks ks.ko3[r] ks.ki3[r] h2
  h3.1 ++ h3.2

/-- The field inverse FL applies to a half: R92 over FPOLY16. -/
def flInv (p16 : BitVec 17) (x : Half) : Half := BitVec.ofNat 16 (gfInv x.toNat p16.toNat)

/-- R108: FL. -/
def fl (ks : KeySchedule) (p16 : BitVec 17) (x : Word) (r : Fin 8) : Word :=
  let l := x.extractLsb' 16 16
  let rt := x.extractLsb' 0 16 ^^^ (flInv p16 (l &&& ks.kl1[r])).rotateLeft 1
  (l ^^^ (flInv p16 (rt ||| ks.kl2[r])).rotateLeft 1) ++ rt

/-- R109: the round function, FO and FL in alternating order. -/
def roundF (ks : KeySchedule) (p16 : BitVec 17) (x : Word) (r : Fin 8) : Word :=
  if r.val % 2 = 0 then fl ks p16 (fo ks x r) r else fo ks (fl ks p16 x r) r

/-- One round of R110 on the halves (left, right), under any round function f. -/
def encRound (f : Word → Fin 8 → Word) (h : Word × Word) (r : Fin 8) : Word × Word :=
  (h.2 ^^^ f h.1 r, h.1)

/-- One step of R111: it undoes encryption round r. -/
def decRound (f : Word → Fin 8 → Word) (h : Word × Word) (r : Fin 8) : Word × Word :=
  (h.2, h.1 ^^^ f h.2 r)

/-- The halves of a block, left first (00_scope.md R10). -/
def halvesOf (b : Block) : Word × Word := (b.extractLsb' 32 32, b.extractLsb' 0 32)

/-- The block of two halves. -/
def joinHalves (h : Word × Word) : Block := h.1 ++ h.2

/-- R110: E, rounds 0 to 7. -/
def encryptBlock (ks : KeySchedule) (p16 : BitVec 17) (b : Block) : Block :=
  joinHalves ((List.finRange 8).foldl (encRound (roundF ks p16)) (halvesOf b))

/-- R111: D, the inverse of E (90_conflicts.md C1): rounds 7 down to 0. -/
def decryptBlock (ks : KeySchedule) (p16 : BitVec 17) (c : Block) : Block :=
  joinHalves ((List.finRange 8).reverse.foldl (decRound (roundF ks p16)) (halvesOf c))

end Sys2Proof.Machine
end

