-- ==== Sys2Proof/Machine/BlockPrimitive.lean ====
section
/-! DEFINITION. The block commands (41_block_primitive.md R114, R115, R116). -/

namespace Sys2Proof.Machine

/-- E of the held schedule and FPOLY16 (R104, R110). -/
def State.encryption (s : State) (b : Block) : Block := encryptBlock s.keys s.fpoly16 b

/-- D of the held schedule and FPOLY16 (R104, R111). -/
def State.decryption (s : State) (b : Block) : Block := decryptBlock s.keys s.fpoly16 b

/-- R114: SCHED, SBOX1 and SBOX2 from the key, and KEY_VALID <- 1. -/
def keyLoadEffect (s : State) : State :=
  { s with keys := deriveSchedule s.key s.keymodC, keyValid := true }

/-- R115: DOUT <- E(DIN). -/
def encBlockEffect (s : State) : State := s.setDout (s.encryption s.din)

/-- R116: DOUT <- D(DIN). -/
def decBlockEffect (s : State) : State := s.setDout (s.decryption s.din)

/-- R114: KEY_LOAD. -/
def execKeyLoad (s : State) : Host.Outcome State Fault Refusal := s.command .keyLoad keyLoadEffect

/-- R115: ENC_BLOCK. -/
def execEncBlock (s : State) : Host.Outcome State Fault Refusal := s.command .encBlock encBlockEffect

/-- R116: DEC_BLOCK. -/
def execDecBlock (s : State) : Host.Outcome State Fault Refusal := s.command .decBlock decBlockEffect

end Sys2Proof.Machine
end

