-- ==== Sys2Proof/Machine/Control.lean ====
section
/-! DEFINITION. The control commands (44_control.md R154, R155). -/

namespace Sys2Proof.Machine

/-- R154: NOP completes and changes nothing else. -/
def execNop (s : State) : Host.Outcome State Fault Refusal := s.command .nop id

/-- R155: SOFT_RESET acts within the CMD write step, at any time, BUSY or not, and discards a command
in flight; DONE is not set. -/
def execSoftReset (s : State) : Host.Outcome State Fault Refusal := .next s.resetCore

end Sys2Proof.Machine
end

