-- ==== Sys2Proof/Machine/FieldEngine.lean ====
section
/-! DEFINITION. The field commands (40_field_engine.md R97, R98, R99). -/

namespace Sys2Proof.Machine

/-- R97: GF_R <- gf_mul(GF_A, GF_B, P). INV0 keeps its value. -/
def gfMulEffect (f : FieldSel) (s : State) : State :=
  { s with gfR := BitVec.ofNat 16 (gfMul s.gfA.toNat s.gfB.toNat (s.poly f)) }

/-- R98: GF_R <- gf_inv(GF_A, P), and INV0 records a zero reduced operand. -/
def gfInvEffect (f : FieldSel) (s : State) : State :=
  { s with
    gfR := BitVec.ofNat 16 (gfInv s.gfA.toNat (s.poly f))
    inv0 := pmod s.gfA.toNat (s.poly f) == 0 }

/-- R99: GF_R <- gf_order(GF_A, P), and INV0 records a zero reduced operand. -/
def gfOrderEffect (f : FieldSel) (s : State) : State :=
  { s with
    gfR := BitVec.ofNat 16 (gfOrder s.gfA.toNat (s.poly f))
    inv0 := pmod s.gfA.toNat (s.poly f) == 0 }

/-- R97: GF_MUL. -/
def execGfMul (f : FieldSel) (s : State) : Host.Outcome State Fault Refusal :=
  s.command (.gfMul f) (gfMulEffect f)

/-- R98: GF_INV. -/
def execGfInv (f : FieldSel) (s : State) : Host.Outcome State Fault Refusal :=
  s.command (.gfInv f) (gfInvEffect f)

/-- R99: GF_ORDER. -/
def execGfOrder (f : FieldSel) (s : State) : Host.Outcome State Fault Refusal :=
  s.command (.gfOrder f) (gfOrderEffect f)

end Sys2Proof.Machine
end

