-- ==== Sys2Proof/Machine/Session.lean ====
section
/-! DEFINITION. The session commands and the step of each mode (43_modes.md R132 to R146). -/

namespace Sys2Proof.Machine

/-- R132: START at completion. -/
def startEffect (s : State) : State :=
  let t : State :=
    { s with
      session := true, blkidx := 0, siglen := 0, authValid := false, authOk := false, chain := s.iv,
      tagacc := 0 }
  if s.mode = .gcm then { t with hsub := s.encryption 0, zblk := s.encryption s.iv } else t

/-- What one step of a mode computes: the output block and the new CHAIN and TAGACC. -/
structure StepResult where
  y : Block
  chain : Block
  tagacc : Block
deriving DecidableEq, Repr

/-- R136: ECB. -/
def ecbStep (s : State) (x : Block) : StepResult :=
  match s.dir with
  | .encrypt => { y := s.encryption x, chain := s.chain, tagacc := s.tagacc }
  | .decrypt => { y := s.decryption x, chain := s.chain, tagacc := s.tagacc }

/-- R137, R138: CBC. -/
def cbcStep (s : State) (x : Block) : StepResult :=
  match s.dir with
  | .encrypt =>
    let y := s.encryption (x ^^^ s.chain)
    { y := y, chain := y, tagacc := s.tagacc }
  | .decrypt => { y := s.decryption x ^^^ s.chain, chain := x, tagacc := s.tagacc }

/-- R139, R140: PCBC. -/
def pcbcStep (s : State) (x : Block) : StepResult :=
  match s.dir with
  | .encrypt =>
    let y := s.encryption (x ^^^ s.chain)
    { y := y, chain := y ^^^ x, tagacc := s.tagacc }
  | .decrypt =>
    let y := s.decryption x ^^^ s.chain
    { y := y, chain := x ^^^ y, tagacc := s.tagacc }

/-- R141, R142: CFB, E in both directions. -/
def cfbStep (s : State) (x : Block) : StepResult :=
  let y := s.encryption s.chain ^^^ x
  match s.dir with
  | .encrypt => { y := y, chain := y, tagacc := s.tagacc }
  | .decrypt => { y := y, chain := x, tagacc := s.tagacc }

/-- R143: OFB, the same in both directions. -/
def ofbStep (s : State) (x : Block) : StepResult :=
  let c := s.encryption s.chain
  { y := c ^^^ x, chain := c, tagacc := s.tagacc }

/-- R144: CTR, the same in both directions. -/
def ctrStep (s : State) (x i : Block) : StepResult :=
  { y := s.encryption (s.iv + i) ^^^ x, chain := s.chain, tagacc := s.tagacc }

/-- R145, R146: the authenticated mode; the tag accumulates over the ciphertext of either direction. -/
def gcmStep (s : State) (x i : Block) : StepResult :=
  let y := s.encryption (s.iv + i + 1) ^^^ x
  let c := match s.dir with
    | .encrypt => y
    | .decrypt => x
  { y := y, chain := s.chain, tagacc := tmul (s.tagacc ^^^ c) s.hsub s.tagPoly }

/-- STEP[CTRL.MODE, CTRL.DIR] of R133. With MODE = 7, which START never lets into a session, the spec
gives no step: the output is a free value (log 10). -/
def State.modeStep (s : State) (x i : Block) : StepResult :=
  match s.mode with
  | .ecb => ecbStep s x
  | .cbc => cbcStep s x
  | .pcbc => pcbcStep s x
  | .cfb => cfbStep s x
  | .ofb => ofbStep s x
  | .ctr => ctrStep s x i
  | .gcm => gcmStep s x i
  | .reserved => { y := s.anyNext, chain := s.chain, tagacc := s.tagacc }

/-- PROCESS once its step's result is known: DOUT, RSM_IDX, CHAIN, TAGACC, SIGLEN, BLKIDX (R133). -/
def State.afterStep (s : State) (r : StepResult) : State :=
  { s.setDout r.y with
    chain := r.chain, tagacc := r.tagacc, siglen := siglenAfter s.siglen s.blkidx r.y,
    blkidx := s.blkidx + 1 }

/-- R133: PROCESS at completion. -/
def processEffect (s : State) : State :=
  let t := s.afterStep (s.modeStep s.din s.blkidx)
  match s.mode with
  | .reserved => t.drawn
  | .ecb | .cbc | .pcbc | .cfb | .ofb | .ctr | .gcm => t

/-- R134: the finished tag, with n_blocks = MSGLEN. -/
def State.finalTag (s : State) : Block := tmul (s.tagacc ^^^ s.msglen) s.hsub s.tagPoly ^^^ s.zblk

/-- R134: FINAL in mode 6 before the session closes: the tag goes to DOUT on encrypt, and is compared
with DIN on decrypt; a mismatch sets AUTHFAIL (60_exceptions.md R167). -/
def gcmFinal (s : State) : State :=
  match s.dir with
  | .encrypt => s.setDout s.finalTag
  | .decrypt =>
    if s.finalTag = s.din then { s with authValid := true, authOk := true }
    else { s with authValid := true, authOk := false, irqStat := s.irqStat ||| irqAuthFail }

/-- R134: FINAL at completion. -/
def finalEffect (s : State) : State :=
  if s.mode = .gcm then { gcmFinal s with session := false } else { s with session := false }

/-- R135: ABORT at completion. -/
def abortEffect (s : State) : State := { s with session := false }

/-- R132: START. -/
def execStart (s : State) : Host.Outcome State Fault Refusal := s.command .start startEffect

/-- R133: PROCESS. -/
def execProcess (s : State) : Host.Outcome State Fault Refusal := s.command .process processEffect

/-- R134: FINAL. -/
def execFinal (s : State) : Host.Outcome State Fault Refusal := s.command .final finalEffect

/-- R135: ABORT. -/
def execAbort (s : State) : Host.Outcome State Fault Refusal := s.command .abort abortEffect

end Sys2Proof.Machine
end

