-- ==== Sys2Proof/Machine/Dispatch.lean ====
section
/-! DEFINITION. One arm per command. -/

namespace Sys2Proof.Machine

def exec (i : Instr) (s : State) : Host.Outcome State Fault Refusal :=
  match i with
  | .nop => Sys2Proof.Machine.execNop s
  | .keyLoad => Sys2Proof.Machine.execKeyLoad s
  | .encBlock => Sys2Proof.Machine.execEncBlock s
  | .decBlock => Sys2Proof.Machine.execDecBlock s
  | .start => Sys2Proof.Machine.execStart s
  | .process => Sys2Proof.Machine.execProcess s
  | .final => Sys2Proof.Machine.execFinal s
  | .abort => Sys2Proof.Machine.execAbort s
  | .gfMul f => Sys2Proof.Machine.execGfMul f s
  | .gfInv f => Sys2Proof.Machine.execGfInv f s
  | .gfOrder f => Sys2Proof.Machine.execGfOrder f s
  | .segPop => Sys2Proof.Machine.execSegPop s
  | .segClear => Sys2Proof.Machine.execSegClear s
  | .rsmRewind => Sys2Proof.Machine.execRsmRewind s
  | .softReset => Sys2Proof.Machine.execSoftReset s

end Sys2Proof.Machine
end

