-- ==== Sys2Proof/Machine/Issue.lean ====
section
/-! DEFINITION. The issue of a command word (60_exceptions.md R164), the host's accesses whole
(20_memory.md R61, R62), and the move of each agent (20_memory.md R72; 70_reset_and_hazards.md R179,
R191). -/

namespace Sys2Proof.Machine

/-- R164: a word w written to CMD. A legal word is the command it decodes to, whose meaning makes the
checks of R165 (SOFT_RESET makes none). An ILLEGAL word is rejected: with BUSY while a command is in
flight, else with BADCMD (30_encoding.md R83). -/
def State.issue (s : State) (w : Word) : Host.Outcome State Fault Refusal :=
  match decode w with
  | .ok i => exec i s
  | .error _ => .next (s.reject (if s.busy then .busy else .badcmd))

/-- R62: `MemWrite(off, n, v)`, n = 4 being all four strobes set; the first condition that applies
decides. -/
def State.busWrite (s : State) (off : BitVec 8) (strb : BitVec 4) (v : Word) :
    Host.Outcome State Fault Refusal :=
  if !aligned off (strobeWidth strb) then .next s.rejectAlign
  else
    match Reg.ofOffset off with
    | none => .next s
    | some r =>
      if r.readOnly then .next s
      else if r = .cmd then s.issue v
      else .next (s.busWriteReg r v)

/-- One access of the host. slverr answers this access alone: it is 0 unless the access is rejected
with ALIGN (60_exceptions.md R162). -/
def State.busAccess (s : State) : BusAccess → Host.Outcome State Fault Refusal
  | .read off n => .next ({ s with slverr := false }.busRead off n)
  | .write off strb v => { s with slverr := false }.busWrite off strb v

/-- The engine's move (60_exceptions.md R166): the command in flight completes; with none in flight
the core "holds its state and does nothing" (60_exceptions.md R178; log 16). -/
def State.engineMove (s : State) : Host.Outcome State Fault Refusal :=
  match s.pending with
  | none => .next s
  | some i => exec i { s with turn := .engine }

/-- One move of an agent. -/
def State.move (s : State) : Input → Host.Outcome State Fault Refusal
  | .host a => { s with turn := .host }.busAccess a
  | .hostPrompt a => { s with turn := .prompt }.busAccess a
  | .engine => s.engineMove
  | .hwReset none => .next s.resetCore
  | .hwReset (some _) => .fault .accessDuringReset

/-- One step: the oldest move to come is made. When none is left the host is idle, and the engine, which
is fair (70_reset_and_hazards.md R191), completes what is in flight (log 2). -/
def State.advance (s : State) : Host.Outcome State Fault Refusal :=
  match s.inputs with
  | [] => s.engineMove
  | m :: rest => { s with inputs := rest }.move m

end Sys2Proof.Machine
end

