-- ==== Sys2Proof/Machine/Step.lean ====
section
/-! DEFINITION. The step of the machine, and where its next command word comes from. -/

namespace Sys2Proof.Machine

/-- One step of the machine (20_memory.md R72). -/
def step (s : State) : Host.Outcome State Fault Refusal := s.advance

/-- s with the command word w as the next thing the host writes to CMD, to be completed at once: the
core fetches nothing (10_state.md R17), its next command is the word of the next CMD write (log 1). -/
def State.withFetchWord (s : State) (nbits w : Nat) : State :=
  { s with
    inputs := .hostPrompt (.write Reg.cmd.offset 0b1111 (BitVec.ofNat 32 (w % 2 ^ nbits))) :: s.inputs }

end Sys2Proof.Machine
end

