-- ==== Sys2Proof/Machine/HostText.lean ====
section
/-! DEFINITION. The host's text formats (42_adapter.md R128, R129). "None of these rules is a core
function; the core sees only register values." UTF-8 is left out by 00_scope.md R5. -/

namespace Sys2Proof.Machine

/-- The lower-case hex digit of a value below 16 (R128). -/
def hexDigit (d : Nat) : Char :=
  if d < 10 then Char.ofNat (48 + d) else Char.ofNat (87 + d)

/-- A block as exactly 16 hex digits, most significant first (R128). -/
def blockHex (b : Block) : List Char :=
  (List.range 16).map fun j => hexDigit (b.extractLsb' (60 - 4 * j) 4).toNat

/-- R128: the ciphertext text of a list of blocks. -/
def ciphertextHex (blocks : List Block) : List Char := blocks.flatMap blockHex

/-- The value of a hex digit in either case (R129). -/
def hexValue (c : Char) : Option Nat :=
  if 48 ≤ c.toNat ∧ c.toNat ≤ 57 then some (c.toNat - 48)
  else if 97 ≤ c.toNat ∧ c.toNat ≤ 102 then some (c.toNat - 87)
  else if 65 ≤ c.toNat ∧ c.toNat ≤ 70 then some (c.toNat - 55)
  else none

/-- The integer a digit string denotes after the digits already read into acc; `none` at a character
that is not a hex digit. -/
def hexNumber : Nat → List Char → Option Nat
  | acc, [] => some acc
  | acc, c :: rest =>
    match hexValue c with
    | some d => hexNumber (16 * acc + d) rest
    | none => none

/-- An optional 0x or 0X before the digits is dropped (R129). -/
def dropHexMark : List Char → List Char
  | '0' :: 'x' :: rest => rest
  | '0' :: 'X' :: rest => rest
  | cs => cs

/-- Why the host turns a text away, before any register is written (R129, 60_exceptions.md R160). The
spec has one input-contract violation; telling its causes apart is the model's choice (DESIGN CHOICE,
logs 21, 22). -/
inductive TextError where
  /-- an empty digit string, or a character that is not a hex digit -/
  | badDigits
  /-- more digits than the value holds -/
  | tooLong
  /-- a ciphertext whose length is not a multiple of 16 -/
  | badLength
  /-- a mode name that is not one of the seven -/
  | unknownMode
  /-- no IV in a mode other than ECB -/
  | missingIv
  /-- a message of more than 2^64 - 1 blocks (43_modes.md R152) -/
  | tooManyBlocks
deriving DecidableEq, Repr

/-- A number of 1 to max digits, with its optional mark (R129; 41_block_primitive.md R113). Of a text
with a bad character and too many digits, `badDigits` is named (DESIGN CHOICE, log 22). -/
def parseNumber (max : Nat) (text : List Char) : Except TextError Nat :=
  match dropHexMark text with
  | [] => .error .badDigits
  | c :: cs =>
    match hexNumber 0 (c :: cs) with
    | none => .error .badDigits
    | some n => if (c :: cs).length ≤ max then .ok n else .error .tooLong

/-- R129: a key of 1 to 32 hex digits. -/
def parseKey (text : List Char) : Except TextError Key :=
  match parseNumber 32 text with
  | .ok n => .ok (BitVec.ofNat 128 n)
  | .error e => .error e

/-- R129: an IV of 1 to 16 hex digits. -/
def parseIv (text : List Char) : Except TextError Block :=
  match parseNumber 16 text with
  | .ok n => .ok (BitVec.ofNat 64 n)
  | .error e => .error e

/-- The blocks of a text of 16 * n hex digits. -/
def parseBlocks : (n : Nat) → List Char → Except TextError (List Block)
  | 0, _ => .ok []
  | n + 1, text =>
    match hexNumber 0 (text.take 16), parseBlocks n (text.drop 16) with
    | some b, .ok rest => .ok (BitVec.ofNat 64 b :: rest)
    | _, _ => .error .badDigits

/-- R129: a ciphertext of 16N hex digits, N ≥ 0. Of a text with a bad length and a bad character,
`badLength` is named (DESIGN CHOICE, log 22). -/
def parseCiphertext (text : List Char) : Except TextError (List Block) :=
  if text.length % 16 = 0 then parseBlocks (text.length / 16) text else .error .badLength

/-- R129: the blocks and the tag of an authenticated-decrypt ciphertext, whose last block is the tag
and which so needs N ≥ 1; an empty one is named `badLength` (DESIGN CHOICE, log 22). -/
def parseAuthenticated (text : List Char) : Except TextError (List Block × Block) :=
  match parseCiphertext text with
  | .error e => .error e
  | .ok [] => .error .badLength
  | .ok (b :: bs) => .ok ((b :: bs).dropLast, (b :: bs).getLast (by simp))

/-- R129: the seven mode names, matched exactly. -/
def parseMode (name : String) : Except TextError Mode :=
  if name = "ECB" then .ok .ecb
  else if name = "CBC" then .ok .cbc
  else if name = "PCBC" then .ok .pcbc
  else if name = "CFB" then .ok .cfb
  else if name = "OFB" then .ok .ofb
  else if name = "CTR" then .ok .ctr
  else if name = "GCM" then .ok .gcm
  else .error .unknownMode

/-- R129: the IV is required in every mode but ECB, where the host may omit it. `none` is an omitted IV.
MODE = 7 has no name, so no text asks for it. -/
def parseSessionIv : Mode → Option (List Char) → Except TextError (Option Block)
  | .ecb, none => .ok none
  | .cbc, none | .pcbc, none | .cfb, none | .ofb, none | .ctr, none | .gcm, none | .reserved, none =>
    .error .missingIv
  | _, some text =>
    match parseIv text with
    | .ok iv => .ok (some iv)
    | .error e => .error e

/-- R129: a ciphertext text as its data blocks and, in mode 6, the tag. -/
def parseReceived (mode : Mode) (text : List Char) : Except TextError (List Block × Option Block) :=
  if mode = .gcm then
    match parseAuthenticated text with
    | .error e => .error e
    | .ok (blocks, tag) => .ok (blocks, some tag)
  else
    match parseCiphertext text with
    | .error e => .error e
    | .ok blocks => .ok (blocks, none)

/-- The texts every use of the core starts from; an omitted IV is `none`. -/
structure RequestText where
  mode : String
  key : List Char
  iv : Option (List Char)
deriving DecidableEq, Repr

/-- A request whose texts R129 takes. -/
structure Request where
  mode : Mode
  key : Key
  iv : Option Block
deriving DecidableEq, Repr

/-- R129: the mode, then the key, then the IV; a request is rejected for the first that is wrong
(log 21). -/
def parseRequest (t : RequestText) : Except TextError Request :=
  match parseMode t.mode with
  | .error e => .error e
  | .ok mode =>
    match parseKey t.key with
    | .error e => .error e
    | .ok key =>
      match parseSessionIv mode t.iv with
      | .error e => .error e
      | .ok iv => .ok { mode := mode, key := key, iv := iv }

/-- The MODE field that names a mode (10_state.md R27). -/
def Mode.bits : Mode → BitVec 3
  | .ecb => 0
  | .cbc => 1
  | .pcbc => 2
  | .cfb => 3
  | .ofb => 4
  | .ctr => 5
  | .gcm => 6
  | .reserved => 7

end Sys2Proof.Machine
end

