-- ==== Sys2Proof/Machine/Message.lean ====
section
/-! DEFINITION. The adapter's conversions between a message and its blocks (42_adapter.md R117,
R118), as functions on whole messages; the hardware of Machine/Adapter.lean does them a byte at a
time. -/

namespace Sys2Proof.Machine

/-- The bytes of a block, position 0 first (20_memory.md R64). -/
def blockBytes (b : Block) : List Byte := (List.range 8).map (blockByte b)

/-- The block of at most 8 bytes, position 0 first, the missing positions 0x00 (R117). -/
def blockOfBytes (m : List Byte) : Block :=
  (List.range 8).foldl (fun b j => b ||| byteAt (m.getD j 0) j) 0

/-- The ⌈L/8⌉ groups of up to 8 bytes of a message of L bytes (R117, R127). -/
def byteGroups (m : List Byte) : List (List Byte) :=
  (List.range ((m.length + 7) / 8)).map fun q => (m.drop (8 * q)).take 8

/-- R117: the blocks of a message, the last one zero-padded; none for the empty message. -/
def segment (m : List Byte) : List Block := (byteGroups m).map blockOfBytes

/-- R118: every 0x00 byte after the last nonzero byte is removed. -/
def stripTrailingZeros (m : List Byte) : List Byte := (m.reverse.dropWhile (· == 0)).reverse

/-- What a reassembled byte sequence is (R118). -/
inductive TextKind where
  | plaintext | ciphertext
deriving DecidableEq, Repr

/-- R118: the bytes of the blocks in order; the trailing zeros go from a plaintext alone. -/
def reassemble (blocks : List Block) : TextKind → List Byte
  | .plaintext => stripTrailingZeros (blocks.flatMap blockBytes)
  | .ciphertext => blocks.flatMap blockBytes

end Sys2Proof.Machine
end

