-- ==== Sys2Proof/Machine/HostProgram.lean ====
section
/-! DEFINITION. The host's assembly (30_encoding.md R85, R86), the boot sequence
(70_reset_and_hazards.md R182), whole messages through a session (43_modes.md R131; 42_adapter.md
R127), how a host program runs beside the engine, and what the host makes of its reads. -/

namespace Sys2Proof.Machine

/-- `WR <REG>, <imm32>` (R85). -/
def wr (r : Reg) (v : Word) : BusAccess := .write r.offset 0b1111 v

/-- `RD <REG>` (R85). -/
def rd (r : Reg) : BusAccess := .read r.offset 4

/-- The registers `RD64` names (R86). -/
inductive Pair where
  | iv | msglen | din | dout | blkidx | siglen
deriving DecidableEq, Repr

/-- The LO register of a pair (R86). -/
def Pair.lo : Pair → Reg
  | .iv => .ivLo
  | .msglen => .msglenLo
  | .din => .dinLo
  | .dout => .doutLo
  | .blkidx => .blkidxLo
  | .siglen => .siglenLo

/-- The HI register of a pair (R86). -/
def Pair.hi : Pair → Reg
  | .iv => .ivHi
  | .msglen => .msglenHi
  | .din => .dinHi
  | .dout => .doutHi
  | .blkidx => .blkidxHi
  | .siglen => .siglenHi

/-- The registers `WR64` names (R86). -/
inductive WritablePair where
  | iv | msglen | din
deriving DecidableEq, Repr

/-- The pair of a register `WR64` names. -/
def WritablePair.pair : WritablePair → Pair
  | .iv => .iv
  | .msglen => .msglen
  | .din => .din

/-- `WR64 <R>, <imm64>`: LO, then HI (R86). -/
def wr64 (p : WritablePair) (v : Block) : List BusAccess :=
  [wr p.pair.lo (loWord v), wr p.pair.hi (hiWord v)]

/-- `RD64 <R>`: LO, then HI (R86). -/
def rd64 (p : Pair) : List BusAccess := [rd p.lo, rd p.hi]

/-- `WRKEY <imm128>`: KEY0 to KEY3 (R86). -/
def wrKey (k : Key) : List BusAccess :=
  [wr .key0 (k.extractLsb' 0 32), wr .key1 (k.extractLsb' 32 32), wr .key2 (k.extractLsb' 64 32),
    wr .key3 (k.extractLsb' 96 32)]

/-- `<MNEMONIC>` and `<MNEMONIC>.16`: the command's word to CMD (R86). -/
def cmd (i : Instr) : BusAccess := wr .cmd (encode i)

/-- A statement of a host program. -/
inductive Statement where
  /-- one bus transaction (R85) -/
  | bus (a : BusAccess)
  /-- `WAIT`: `loop: RD STATUS; if bit 0 of the result is 1, repeat` (R86) -/
  | wait
deriving DecidableEq, Repr

/-- The access a statement makes next. -/
def Statement.access : Statement → BusAccess
  | .bus a => a
  | .wait => rd .status

/-- What is left of a statement once its access has left t: `WAIT` repeats while bit 0 of the result is
1, so it ends at the first read with BUSY = 0 (R86). -/
def Statement.leftAfter (t : State) : Statement → List Statement
  | .bus _ => []
  | .wait => if t.rdata.getLsbD 0 then [.wait] else []

/-- Bus transactions, one after another. -/
def transactions (accesses : List BusAccess) : List Statement := accesses.map .bus

/-- `WAITDONE`: `WAIT` then `RD ERRCODE` (R86). -/
def waitDone : List Statement := [.wait, .bus (rd .errcode)]

/-- A command, and the WAIT that must come before the host's next write or read of a result
(70_reset_and_hazards.md R183). -/
def command (i : Instr) : List Statement := [.bus (cmd i), .wait]

/-! ### Boot (70_reset_and_hazards.md R182) -/

/-- Step 1: the degree-16 field, and the degree-8 field where it is used. -/
def fieldAccesses (fpoly16 : BitVec 17) (fgen16 : Half) (degree8 : Option (BitVec 9 × Byte)) :
    List BusAccess :=
  [wr .fpoly16 (fpoly16.setWidth 32), wr .fgen16 (fgen16.setWidth 32)] ++
    match degree8 with
    | none => []
    | some (fpoly8, fgen8) => [wr .fpoly8 (fpoly8.setWidth 32), wr .fgen8 (fgen8.setWidth 32)]

/-- Step 2: the key, then KEY_LOAD. -/
def keyProgram (k : Key) : List Statement := transactions (wrKey k) ++ command .keyLoad

/-- Step 3, optional: the interrupt enables. -/
def irqAccesses : Option (BitVec 3) → List BusAccess
  | none => []
  | some enables => [wr .irqEn (enables.setWidth 32)]

/-- The boot sequence; the order of its first two steps is free. -/
def bootProgram (fpoly16 : BitVec 17) (fgen16 : Half) (degree8 : Option (BitVec 9 × Byte)) (k : Key)
    (enables : Option (BitVec 3)) : List Statement :=
  transactions (fieldAccesses fpoly16 fgen16 degree8) ++ keyProgram k ++
    transactions (irqAccesses enables)

/-! ### Messages (42_adapter.md R127) -/

/-- What the host chooses for a session in either direction. -/
structure SessionOptions where
  mode : Mode
  tagField : FieldSel
  iv : Option Block
deriving DecidableEq, Repr

/-- CTRL.DIR (10_state.md R27). -/
def Direction.bit : Direction → BitVec 1
  | .encrypt => 0
  | .decrypt => 1

/-- CTRL.TAGFSEL (R27): 0 is FPOLY16, 1 is FPOLY8. -/
def tagSelect : FieldSel → BitVec 1
  | .deg16 => 0
  | .deg8 => 1

/-- The CTRL a session in a direction is opened under (R27). -/
def SessionOptions.ctrl (o : SessionOptions) (d : Direction) : BitVec 5 :=
  tagSelect o.tagField ++ d.bit ++ o.mode.bits

/-- The IV write of a session; an omitted IV writes nothing (42_adapter.md R129). -/
def ivAccesses : Option Block → List BusAccess
  | none => []
  | some iv => wr64 .iv iv

/-- Opening a session of n blocks (43_modes.md R131). -/
def openSession (o : SessionOptions) (d : Direction) (n : Block) : List Statement :=
  transactions ([wr .ctrl ((o.ctrl d).setWidth 32)] ++ ivAccesses o.iv ++ wr64 .msglen n) ++
    command .start

/-- One block written to DIN, and PROCESS (R131). -/
def processBlock (x : Block) : List Statement := transactions (wr64 .din x) ++ command .process

/-- One group of up to 8 message bytes through the segmenter into PROCESS (R127). -/
def processBytes (m : List Byte) : List Statement :=
  transactions (m.map fun v => wr .byteIn (v.setWidth 32)) ++ command .segPop ++ command .process

/-- The reads of a finished tag: the extra block of an authenticated encrypt (43_modes.md R134). -/
def tagReads (mode : Mode) : List BusAccess := if mode = .gcm then rd64 .dout else []

/-- R127, encrypt: MSGLEN = ⌈L/8⌉ before START, each group of bytes through the segmenter and PROCESS,
its output read from DOUT, then FINAL and, in mode 6, the tag. -/
def encryptProgram (o : SessionOptions) (m : List Byte) : List Statement :=
  openSession o .encrypt (BitVec.ofNat 64 (byteGroups m).length) ++
    (byteGroups m).flatMap (fun g => processBytes g ++ transactions (rd64 .dout)) ++
    command .final ++ transactions (tagReads o.mode)

/-- The received tag goes to DIN before FINAL (43_modes.md R131, R134). -/
def tagWrites : Option Block → List BusAccess
  | none => []
  | some tag => wr64 .din tag

/-- The read of AUTH_VALID and AUTH_OK after an authenticated decrypt (70_reset_and_hazards.md R190). -/
def verdictReads (mode : Mode) : List BusAccess := if mode = .gcm then [rd .status] else []

/-- R127, decrypt: MSGLEN is the number of data blocks, the tag not counted; each block goes to DIN and
through PROCESS, and its 8 bytes are read from BYTE_OUT; then the tag in mode 6, FINAL, and SIGLEN. -/
def decryptProgram (o : SessionOptions) (blocks : List Block) (tag : Option Block) : List Statement :=
  openSession o .decrypt (BitVec.ofNat 64 blocks.length) ++
    blocks.flatMap (fun x => processBlock x ++ transactions (List.replicate 8 (rd .byteOut))) ++
    transactions (tagWrites tag) ++ command .final ++
    transactions (rd64 .siglen ++ verdictReads o.mode)

/-! ### Requests: no access is made before every text is taken (42_adapter.md R129) -/

/-- The session options of a request. -/
def Request.options (r : Request) (tagField : FieldSel) : SessionOptions :=
  { mode := r.mode, tagField := tagField, iv := r.iv }

/-- A program for n blocks, turned away if the counters do not hold n (43_modes.md R152). -/
def withinCounters (n : Nat) (program : List Statement) : Except TextError (List Statement) :=
  if n < 2 ^ 64 then .ok program else .error .tooManyBlocks

/-- The program of an encrypt request, or the reason it is rejected. -/
def encryptRequest (t : RequestText) (tagField : FieldSel) (m : List Byte) :
    Except TextError (List Statement) :=
  match parseRequest t with
  | .error e => .error e
  | .ok r =>
    withinCounters (byteGroups m).length
      (keyProgram r.key ++ encryptProgram (r.options tagField) m)

/-- The program of a decrypt request, or the reason it is rejected. -/
def decryptRequest (t : RequestText) (tagField : FieldSel) (ciphertext : List Char) :
    Except TextError (List Statement) :=
  match parseRequest t with
  | .error e => .error e
  | .ok r =>
    match parseReceived r.mode ciphertext with
    | .error e => .error e
    | .ok (blocks, tag) =>
      withinCounters blocks.length
        (keyProgram r.key ++ decryptProgram (r.options tagField) blocks tag)

/-! ### A host program beside the engine -/

/-- One read of the host and the data it returned. -/
structure ReadResult where
  off : BitVec 8
  data : Word
deriving DecidableEq, Repr

/-- Who moves next while a host program runs. A schedule is a list of them (log 14). -/
inductive Agent where
  /-- the host makes its next access -/
  | host
  /-- the same, and a command it issues completes at once (70_reset_and_hazards.md R191) -/
  | hostPrompt
  /-- the engine -/
  | engine
  /-- the reset input (R179) -/
  | reset
deriving DecidableEq, Repr

/-- The move an agent makes; a host with nothing left to do makes none. -/
def Agent.move : Agent → List Statement → Option Input
  | .host, [] | .hostPrompt, [] => none
  | .host, c :: _ => some (.host c.access)
  | .hostPrompt, c :: _ => some (.hostPrompt c.access)
  | .engine, _ => some .engine
  | .reset, _ => some (.hwReset none)

/-- What is left of a program once an agent's move has left t. -/
def Agent.leftAfter (t : State) : Agent → List Statement → List Statement
  | .host, [] | .hostPrompt, [] => []
  | .host, c :: rest | .hostPrompt, c :: rest => c.leftAfter t ++ rest
  | .engine, p | .reset, p => p

/-- The offset a move reads at, if it is a read. -/
def Input.readOffset : Input → Option (BitVec 8)
  | .host (.read off _) => some off
  | .hostPrompt (.read off _) => some off
  | .host (.write _ _ _) | .hostPrompt (.write _ _ _) | .engine | .hwReset _ => none

/-- What the host sees of a move that left t. -/
def Input.seen (m : Input) (t : State) : List ReadResult :=
  match m.readOffset with
  | none => []
  | some off => [{ off := off, data := t.rdata }]

/-- A host program after some moves: the reads so far, the program still to do, and the state. -/
structure HostRun where
  seen : List ReadResult
  left : List Statement
  state : State
deriving DecidableEq, Repr

/-- A host program from s under a schedule; `none` if the model stops. -/
def runProgram : List Agent → List Statement → State → Option HostRun
  | [], p, s => some { seen := [], left := p, state := s }
  | a :: schedule, p, s =>
    match a.move p with
    | none => runProgram schedule p s
    | some m =>
      match step { s with inputs := [m] } with
      | .fault _ => none
      | .refused _ => none
      | .next t =>
        match runProgram schedule (a.leftAfter t p) t with
        | none => none
        | some r => some { r with seen := m.seen t ++ r.seen }

/-- A host program each of whose commands completes at once, so that each WAIT reads STATUS once: a turn
for each statement. -/
def promptRun (p : List Statement) (s : State) : Option HostRun :=
  runProgram (List.replicate p.length .hostPrompt) p s

/-! ### What the host makes of its reads -/

/-- The words read from a register, in order. -/
def readsOf (r : Reg) (seen : List ReadResult) : List Word :=
  (seen.filter fun x => x.off == r.offset).map ReadResult.data

/-- The values of a 64-bit register read by RD64 (R86): (hi << 32) | lo. -/
def pairReads (p : Pair) (seen : List ReadResult) : List Block :=
  List.zipWith (fun lo hi => hi ++ lo) (readsOf p.lo seen) (readsOf p.hi seen)

/-- The output blocks of an encrypt session, the tag the last of them in mode 6 (R128). -/
def outputBlocks (seen : List ReadResult) : List Block := pairReads .dout seen

/-- The bytes read from BYTE_OUT. -/
def bytesRead (seen : List ReadResult) : List Byte :=
  (readsOf .byteOut seen).map fun v => v.setWidth 8

/-- R127: the first SIGLEN bytes of the concatenated plaintext. -/
def plaintextOf (seen : List ReadResult) : List Byte :=
  (bytesRead seen).take ((pairReads .siglen seen).getLastD 0).toNat

/-- The last STATUS read says AUTH_VALID = 1 and AUTH_OK = 1 (70_reset_and_hazards.md R190). -/
def verdictTrusted (seen : List ReadResult) : Bool :=
  let status := (readsOf .status seen).getLastD 0
  status.getLsbD 4 && status.getLsbD 5

end Sys2Proof.Machine
end

