-- ==== Sys2Proof/Safety.lean ====
section
/-! DEFINITION. The terms in which claims are stated: how a command is issued, turned away and
completed, what a host access leaves, the invariants of the core, and whole sessions. -/

namespace Sys2Proof.Safety

open Sys2Proof.Machine

/-- The host issues a command and none is in flight. -/
abbrev Issuing (s : State) : Prop := s.turn ≠ .engine ∧ s.pending = none

/-- A command whose checks are `passes` completes in this step: the engine completes it, having been
accepted before, or the host issues it with none in flight, its checks pass, and it completes at once
(60_exceptions.md R164, R166; log 3). -/
abbrev Completing (s : State) (passes : Prop) : Prop :=
  s.turn = .engine ∨ (s.turn = .prompt ∧ s.pending = none ∧ passes)

/-- 60_exceptions.md R162: what a rejection with code c leaves. -/
abbrev rejected (s : State) (c : ErrCode) : State :=
  { s with errcode := c, irqStat := s.irqStat ||| 0b010#3 }

/-- 60_exceptions.md R166: what a completion adds to a command's own effect t. -/
abbrev completed (t : State) : State :=
  { t with pending := none, irqStat := t.irqStat ||| 0b001#3 }

/-- `word` is the one legal word of i with its opcode: any other word with that opcode is ILLEGAL
(30_encoding.md R78, R82; 60_exceptions.md R165 check 2). -/
def OnlyWord (i : Instr) (word : Word) : Prop :=
  encode i = word ∧ decode word = .ok i ∧
    ∀ w : Word, w.extractLsb' 0 8 = word.extractLsb' 0 8 → w ≠ word →
      decode w = .error .reservedBits

/-- `w8` and `w16` are the two legal words of a field command, F16 = 0 and F16 = 1; any other word with
their opcode is ILLEGAL (30_encoding.md R79, R82). -/
def FieldWords (i : FieldSel → Instr) (w8 w16 : Word) : Prop :=
  encode (i .deg8) = w8 ∧ decode w8 = .ok (i .deg8) ∧
    encode (i .deg16) = w16 ∧ decode w16 = .ok (i .deg16) ∧
    ∀ w : Word, w.extractLsb' 0 8 = w8.extractLsb' 0 8 → w ≠ w8 → w ≠ w16 →
      decode w = .error .reservedBits

/-- 60_exceptions.md R165 check 1: while a command is in flight the host's issue of i is rejected with
BUSY. -/
def TurnedAwayWhileBusy (i : Instr) : Prop :=
  ∀ s : State, s.turn ≠ .engine → s.pending ≠ none → exec i s = .next (rejected s .busy)

/-- The state passes checks 3 to 6 of 60_exceptions.md R165 for the command, written as that rule's
list of conditions. -/
def Admissible : Instr → State → Prop
  | .nop, _ => True
  | .keyLoad, s => s.session = false
  | .encBlock, s => s.session = false ∧ s.keyValid = true ∧ s.fpoly16.getLsbD 16 = true
  | .decBlock, s => s.session = false ∧ s.keyValid = true ∧ s.fpoly16.getLsbD 16 = true
  | .start, s => s.session = false ∧ s.keyValid = true ∧ s.fpoly16.getLsbD 16 = true ∧
      ¬ (s.ctrl.extractLsb' 0 3 = 6 ∧ s.ctrl.getLsbD 4 = true ∧ s.fpoly8.getLsbD 8 = false) ∧
      s.ctrl.extractLsb' 0 3 ≠ 7
  | .process, s => s.session = true ∧ s.blkidx ≠ s.msglen
  | .final, s => s.session = true ∧ s.blkidx = s.msglen
  | .abort, _ => True
  | .gfMul .deg8, s => s.fpoly8.getLsbD 8 = true
  | .gfMul .deg16, s => s.fpoly16.getLsbD 16 = true
  | .gfInv .deg8, s => s.fpoly8.getLsbD 8 = true
  | .gfInv .deg16, s => s.fpoly16.getLsbD 16 = true
  | .gfOrder .deg8, s => s.fpoly8.getLsbD 8 = true
  | .gfOrder .deg16, s => s.fpoly16.getLsbD 16 = true
  | .segPop, s => s.segCnt ≠ 0
  | .segClear, _ => True
  | .rsmRewind, _ => True
  | .softReset, _ => True

/-- The access a, made by the host in state s as its next move, leaves t; the move is used up and the
turn is the host's. It is so whether or not a command it might issue is completed at once. -/
def Serves (s : State) (a : BusAccess) (t : State) : Prop :=
  ∀ rest : List Input,
    step { s with inputs := .host a :: rest } = .next { t with inputs := rest, turn := .host } ∧
    step { s with inputs := .hostPrompt a :: rest } = .next { t with inputs := rest, turn := .prompt }

/-- 70_reset_and_hazards.md R180: t is s after a reset. Every element that rule gives a value has it, the
parameter KEYMOD_C is unchanged, and the elements it leaves unspecified are left open here too, as are
the port's record of the last access and the model's own fields. -/
abbrev ResetFrom (s t : State) : Prop :=
  t = { State.reset with
    keys := t.keys, chain := t.chain, tagacc := t.tagacc, hsub := t.hsub, zblk := t.zblk,
    rdata := t.rdata, slverr := t.slverr, keymodC := s.keymodC, free := t.free, turn := t.turn,
    inputs := t.inputs }

/-- A 32-bit write of v at offset off, all strobes set. -/
abbrev writeAt (off : BitVec 8) (v : Word) : BusAccess := .write off 0b1111 v

/-- A 32-bit read at offset off. -/
abbrev readAt (off : BitVec 8) : BusAccess := .read off 4

/-- s after an aligned access is answered: slverr is 0. -/
abbrev answered (s : State) : State := { s with slverr := false }

/-- 41_block_primitive.md R105, round by round: `box` is the last of the arrays b 0, b 1, ..., b 256,
where b 0 is the identity and round i, from the running sum j i, adds box[i] and key_byte[i mod 16] to
it (mod 256) and swaps entries i and j. -/
def IsSbox (k : Key) (box : Vector Byte 256) : Prop :=
  ∃ (b : Nat → Fin 256 → Byte) (j : Nat → Byte),
    (∀ v : Fin 256, b 0 v = BitVec.ofNat 8 v.val) ∧ j 0 = 0 ∧
    (∀ i : Fin 256,
      j (i.val + 1) = j i.val + b i.val i + k.extractLsb' (120 - 8 * (i.val % 16)) 8 ∧
      b (i.val + 1) i = b i.val (j (i.val + 1)).toFin ∧
      b (i.val + 1) (j (i.val + 1)).toFin = b i.val i ∧
      ∀ v : Fin 256, v ≠ i → v ≠ (j (i.val + 1)).toFin → b (i.val + 1) v = b i.val v) ∧
    ∀ v : Fin 256, box[v] = b 256 v

/-- 10_state.md R53: "every byte of SEGBUF at byte position SEG_CNT or later ... is 0". -/
def SegmenterPadded (s : State) : Prop :=
  ∀ j : Nat, s.segCnt.val ≤ j → j < 8 → blockByte s.segbuf j = 0

/-- 10_state.md R26: KEY_VALID says that the held schedule is that of reg[KEY]. -/
def ScheduleCurrent (s : State) : Prop :=
  s.keyValid = true → s.keys = deriveSchedule s.key s.keymodC

/-- 60_exceptions.md R166: the checks made at the issue of the command in flight still hold;
SOFT_RESET is never in flight. -/
def PendingAdmitted (s : State) : Prop :=
  ∀ i : Instr, s.pending = some i → i ≠ .softReset ∧ Admissible i s

/-- 43_modes.md R131, R133: what START checked holds through the session, and no more than MSGLEN
blocks are done. -/
def SessionReady (s : State) : Prop :=
  s.session = true →
    s.keyValid = true ∧ s.fpoly16.getLsbD 16 = true ∧ s.ctrl.extractLsb' 0 3 ≠ 7 ∧
    ¬ (s.ctrl.extractLsb' 0 3 = 6 ∧ s.ctrl.getLsbD 4 = true ∧ s.fpoly8.getLsbD 8 = false) ∧
    s.blkidx ≤ s.msglen

/-- 10_state.md R26: AUTH_OK is the verdict of a check that has run. -/
def VerdictHasCheck (s : State) : Prop := s.authOk = true → s.authValid = true

/-- 10_state.md R51, R52; 43_modes.md R145: in a mode-6 session HSUB is E(0), ZBLK is E(IV), and
TAGACC is below 2^16 (2^8 with TAGFSEL = 1). -/
def AuthenticatedStateHeld (s : State) : Prop :=
  s.session = true → s.ctrl.extractLsb' 0 3 = 6 →
    s.hsub = encryptBlock s.keys s.fpoly16 0 ∧ s.zblk = encryptBlock s.keys s.fpoly16 s.iv ∧
    s.tagacc.toNat < 2 ^ (if s.ctrl.getLsbD 4 then 8 else 16)

/-- The invariant of the core. -/
structure Inv (s : State) : Prop where
  segmenter : SegmenterPadded s
  schedule : ScheduleCurrent s
  pending : PendingAdmitted s
  session : SessionReady s
  verdict : VerdictHasCheck s
  authenticated : AuthenticatedStateHeld s

/-- t differs from s at most in the elements 70_reset_and_hazards.md R180 leaves unspecified, and only
where s gives them no meaning: the schedule while KEY_VALID = 0, CHAIN and TAGACC outside a session,
HSUB and ZBLK outside a mode-6 session. -/
def Indistinguishable (s t : State) : Prop :=
  t = { s with keys := t.keys, chain := t.chain, tagacc := t.tagacc, hsub := t.hsub, zblk := t.zblk } ∧
  (s.keyValid = true → t.keys = s.keys) ∧
  (s.session = true → t.chain = s.chain ∧ t.tagacc = s.tagacc) ∧
  (s.session = true → s.ctrl.extractLsb' 0 3 = 6 → t.hsub = s.hsub ∧ t.zblk = s.zblk)

/-- The state after the host issues i and it completes at once; `none` if the model stops. -/
def issueNow (i : Instr) (s : State) : Option State :=
  match exec i { s with turn := .prompt } with
  | .next t => some t
  | .fault _ => none
  | .refused _ => none

/-- PROCESS for each block in turn: the outputs and the last state. -/
def feed : State → List Block → Option (List Block × State)
  | s, [] => some ([], s)
  | s, x :: xs =>
    match issueNow .process { s with din := x } with
    | none => none
    | some t =>
      match feed t xs with
      | none => none
      | some (ys, u) => some (t.dout :: ys, u)

/-- A session (43_modes.md R131): START, PROCESS for each block, then FINAL with `tag` in DIN: the
outputs of PROCESS and the last state. -/
def runSession (s : State) (xs : List Block) (tag : Block) : Option (List Block × State) :=
  match issueNow .start s with
  | none => none
  | some t =>
    match feed t xs with
    | none => none
    | some (ys, u) =>
      match issueNow .final { u with din := tag } with
      | none => none
      | some v => some (ys, v)

end Sys2Proof.Safety
end

