-- ==== Sys2Proof/Certificates/Slice0/Obligations.lean ====
section
/-! DEFINITION. The statements for the provers. Each docstring names the rule of spec/ it formalises. -/

open Sys2Proof Sys2Proof.Machine Sys2Proof.Safety

/-! ### Encoding -/

/-- 30_encoding.md R81: the assigned command words, each with its command. -/
def Obligations.AssignedWordsDecode : Prop :=
  decode 0x00000000 = .ok .nop ∧ decode 0x00000001 = .ok .keyLoad ∧
  decode 0x00000002 = .ok .encBlock ∧ decode 0x00000003 = .ok .decBlock ∧
  decode 0x00000010 = .ok .start ∧ decode 0x00000011 = .ok .process ∧
  decode 0x00000012 = .ok .final ∧ decode 0x00000013 = .ok .abort ∧
  decode 0x00000020 = .ok (.gfMul .deg8) ∧ decode 0x00000120 = .ok (.gfMul .deg16) ∧
  decode 0x00000021 = .ok (.gfInv .deg8) ∧ decode 0x00000121 = .ok (.gfInv .deg16) ∧
  decode 0x00000022 = .ok (.gfOrder .deg8) ∧ decode 0x00000122 = .ok (.gfOrder .deg16) ∧
  decode 0x00000030 = .ok .segPop ∧ decode 0x00000031 = .ok .segClear ∧
  decode 0x00000032 = .ok .rsmRewind ∧ decode 0x000000FF = .ok .softReset

/-- Decode and encode agree both ways: every command is well formed and comes back from its word, and a
word that decodes is the word of its command, so no bit of a legal word is dropped. -/
def Obligations.DecodeEncodeAgree : Prop :=
  (∀ i : Instr, i.wellFormed = true ∧ decode (encode i) = .ok i ∧
    decodeBytes (lanesOf (encode i)) = .ok i) ∧
  ∀ (w : Word) (i : Instr), decode w = .ok i → encode i = w

/-- 30_encoding.md R81, R82: the words that decode are exactly the 18 words of R81, each to its command;
every other word is ILLEGAL. -/
def Obligations.LegalWordsAreEighteen : Prop :=
  ∀ (w : Word) (i : Instr), decode w = .ok i ↔
    (w, i) ∈ ([(0x00000000, .nop), (0x00000001, .keyLoad), (0x00000002, .encBlock),
      (0x00000003, .decBlock), (0x00000010, .start), (0x00000011, .process), (0x00000012, .final),
      (0x00000013, .abort), (0x00000020, .gfMul .deg8), (0x00000120, .gfMul .deg16),
      (0x00000021, .gfInv .deg8), (0x00000121, .gfInv .deg16), (0x00000022, .gfOrder .deg8),
      (0x00000122, .gfOrder .deg16), (0x00000030, .segPop), (0x00000031, .segClear),
      (0x00000032, .rsmRewind), (0x000000FF, .softReset)] : List (Word × Instr))

/-- A step runs the decoded command. When the host's next move writes to CMD a word that decodes to i,
the step is exec of i on the state with that move used up, slverr 0 and the turn the move's; when the
engine moves, or is alone left to move, with i in flight, the step is exec of i in the engine's turn.
The scheduling is the model's choice, DESIGN CHOICE of logs 1 to 3: the list of moves (log 1), the
`hostPrompt` move and the step with no move left, in which the idle host lets the engine complete, as
the fairness of 70_reset_and_hazards.md R191 allows (log 2), and the field `turn` (log 3). -/
def Obligations.StepRunsDecodedCommand : Prop :=
  (∀ (s : State) (rest : List Input) (w : Word) (i : Instr), decode w = .ok i →
    step { s with inputs := .host (writeAt 0x0C w) :: rest } =
      exec i { s with inputs := rest, turn := .host, slverr := false } ∧
    step { s with inputs := .hostPrompt (writeAt 0x0C w) :: rest } =
      exec i { s with inputs := rest, turn := .prompt, slverr := false }) ∧
  (∀ (s : State) (rest : List Input) (i : Instr), s.pending = some i →
    step { s with inputs := .engine :: rest } = exec i { s with inputs := rest, turn := .engine } ∧
    step { s with inputs := [] } = exec i { s with inputs := [], turn := .engine })

/-- 30_encoding.md R83: a word is ILLEGAL when its opcode is unassigned or a reserved bit is set; written
to CMD it is rejected with BADCMD, or with BUSY while a command is in flight (a word with OPC = 0xFF and
another bit set among them), and has no other effect. MODE = 7 is turned away at START. -/
def Obligations.IllegalWordRejected : Prop :=
  (∀ w : Word, (∃ e, decode w = .error e) ↔
    w.extractLsb' 0 8 ∉ plainOpcodes ++ fieldOpcodes ∨
    (w.extractLsb' 0 8 ∈ plainOpcodes ∧ w.extractLsb' 8 24 ≠ 0) ∨
    (w.extractLsb' 0 8 ∈ fieldOpcodes ∧ w.extractLsb' 9 23 ≠ 0)) ∧
  (∀ (s : State) (w : Word) (e : DecodeError), decode w = .error e →
    Serves s (writeAt 0x0C w)
      (rejected (answered s) (if s.pending = none then .badcmd else .busy))) ∧
  (∀ w : Word, w.extractLsb' 0 8 = 0xFF → w ≠ 0xFF → decode w = .error .reservedBits) ∧
  ∀ s : State, Issuing s → s.session = false → s.keyValid = true → s.fpoly16.getLsbD 16 = true →
    s.ctrl.extractLsb' 0 3 = 7 → exec .start s = .next (rejected s .badmode)

/-! ### Issue and completion -/

/-- 60_exceptions.md R164, R165: in the host's turn (log 3) with no command in flight, a command that
passes its checks becomes PENDING and nothing else changes. -/
def Obligations.AcceptedCommandIsInFlight : Prop :=
  ∀ (i : Instr) (s : State), i ≠ .softReset → s.turn = .host → s.pending = none →
    Admissible i s → exec i s = .next { s with pending := some i }

/-- 60_exceptions.md R165: a command that fails a check is rejected, with no effect but the code and
IRQ_STAT.ERR. -/
def Obligations.InadmissibleCommandRejected : Prop :=
  ∀ (i : Instr) (s : State), s.turn ≠ .engine → s.pending = none → ¬ Admissible i s →
    ∃ c, c ∈ [ErrCode.seq, .nokey, .badfield, .badmode] ∧ exec i s = .next (rejected s c)

/-- The machine stops in one case alone: a bus access inside a hardware reset (log 9). Every other step
has a next state. -/
def Obligations.StopsOnlyInsideReset : Prop :=
  ∀ s : State, (∃ t, step s = .next t) ∨
    (step s = .fault .accessDuringReset ∧ ∃ a rest, s.inputs = .hwReset (some a) :: rest)

/-! ### The commands -/

/-- 44_control.md R154: NOP. -/
def Obligations.NopOnlyCompletes : Prop :=
  OnlyWord .nop 0x00000000 ∧ TurnedAwayWhileBusy .nop ∧
  ∀ s : State,
    (s.turn = .host → s.pending = none → exec .nop s = .next { s with pending := some .nop }) ∧
    (Completing s True → exec .nop s = .next (completed s))

/-- 44_control.md R155: SOFT_RESET, at any time, BUSY or not, in a session or not, discards a command in
flight and gives every element its reset value (`ResetFrom`); a hardware reset does the same. -/
def Obligations.SoftResetGivesResetState : Prop :=
  OnlyWord .softReset 0x000000FF ∧
  ∀ s : State, ∃ t, exec .softReset s = .next t ∧ ResetFrom s t ∧
    t.turn = s.turn ∧ t.inputs = s.inputs ∧ t.free = s.free ∧
    ∀ rest : List Input, step { s with inputs := .hwReset none :: rest } =
      .next { t with inputs := rest }

/-- 70_reset_and_hazards.md R179: a hardware reset leaves what SOFT_RESET leaves, and discards a
command in flight. It is the model's own state: the unspecified elements have the values of log 7. -/
def Obligations.HardwareResetIsSoftReset : Prop :=
  ∀ (s : State) (rest : List Input),
    step { s with inputs := .hwReset none :: rest } = exec .softReset { s with inputs := rest } ∧
    ∃ t, step { s with inputs := .hwReset none :: rest } = .next t ∧ t.pending = none

/-- 41_block_primitive.md R114: KEY_LOAD. -/
def Obligations.KeyLoadHoldsSchedule : Prop :=
  OnlyWord .keyLoad 0x00000001 ∧ TurnedAwayWhileBusy .keyLoad ∧
  ∀ s : State,
    (Completing s (s.session = false) →
      exec .keyLoad s = .next (completed { s with
        keys := deriveSchedule (s.key3 ++ s.key2 ++ s.key1 ++ s.key0) s.keymodC
        keyValid := true })) ∧
    (Issuing s → s.session = true → exec .keyLoad s = .next (rejected s .seq))

/-- 41_block_primitive.md R115: ENC_BLOCK. -/
def Obligations.EncBlockEnciphersDin : Prop :=
  OnlyWord .encBlock 0x00000002 ∧ TurnedAwayWhileBusy .encBlock ∧
  ∀ s : State,
    (Completing s (s.session = false ∧ s.keyValid = true ∧ s.fpoly16.getLsbD 16 = true) →
      exec .encBlock s = .next (completed { s with
        dout := encryptBlock s.keys s.fpoly16 s.din, rsmIdx := 0 })) ∧
    (Issuing s → s.session = true → exec .encBlock s = .next (rejected s .seq)) ∧
    (Issuing s → s.session = false → s.keyValid = false →
      exec .encBlock s = .next (rejected s .nokey)) ∧
    (Issuing s → s.session = false → s.keyValid = true → s.fpoly16.getLsbD 16 = false →
      exec .encBlock s = .next (rejected s .badfield))

/-- 41_block_primitive.md R116: DEC_BLOCK. -/
def Obligations.DecBlockDeciphersDin : Prop :=
  OnlyWord .decBlock 0x00000003 ∧ TurnedAwayWhileBusy .decBlock ∧
  ∀ s : State,
    (Completing s (s.session = false ∧ s.keyValid = true ∧ s.fpoly16.getLsbD 16 = true) →
      exec .decBlock s = .next (completed { s with
        dout := decryptBlock s.keys s.fpoly16 s.din, rsmIdx := 0 })) ∧
    (Issuing s → s.session = true → exec .decBlock s = .next (rejected s .seq)) ∧
    (Issuing s → s.session = false → s.keyValid = false →
      exec .decBlock s = .next (rejected s .nokey)) ∧
    (Issuing s → s.session = false → s.keyValid = true → s.fpoly16.getLsbD 16 = false →
      exec .decBlock s = .next (rejected s .badfield))

/-- 43_modes.md R132: START. -/
def Obligations.StartOpensSession : Prop :=
  OnlyWord .start 0x00000010 ∧ TurnedAwayWhileBusy .start ∧
  ∀ s : State,
    (Completing s (Admissible .start s) → s.ctrl.extractLsb' 0 3 ≠ 6 →
      exec .start s = .next (completed { s with
        session := true, blkidx := 0, siglen := 0, authValid := false, authOk := false,
        chain := s.iv, tagacc := 0 })) ∧
    (Completing s (Admissible .start s) → s.ctrl.extractLsb' 0 3 = 6 →
      exec .start s = .next (completed { s with
        session := true, blkidx := 0, siglen := 0, authValid := false, authOk := false,
        chain := s.iv, tagacc := 0, hsub := encryptBlock s.keys s.fpoly16 0,
        zblk := encryptBlock s.keys s.fpoly16 s.iv })) ∧
    (Issuing s → s.session = true → exec .start s = .next (rejected s .seq)) ∧
    (Issuing s → s.session = false → s.keyValid = false →
      exec .start s = .next (rejected s .nokey)) ∧
    (Issuing s → s.session = false → s.keyValid = true →
      (s.fpoly16.getLsbD 16 = false ∨
        (s.ctrl.extractLsb' 0 3 = 6 ∧ s.ctrl.getLsbD 4 = true ∧ s.fpoly8.getLsbD 8 = false)) →
      exec .start s = .next (rejected s .badfield)) ∧
    (Issuing s → s.session = false → s.keyValid = true → s.fpoly16.getLsbD 16 = true →
      s.ctrl.extractLsb' 0 3 = 7 → exec .start s = .next (rejected s .badmode))

/-- 43_modes.md R133: PROCESS, with the step of the mode as R136 to R146 give it
(`Obligations.StepOfEachMode`). MODE = 7 never reaches a session (`Obligations.InvKeptByEveryStep`). -/
def Obligations.ProcessTransformsBlock : Prop :=
  OnlyWord .process 0x00000011 ∧ TurnedAwayWhileBusy .process ∧
  ∀ s : State,
    (Completing s (s.session = true ∧ s.blkidx ≠ s.msglen) → s.ctrl.extractLsb' 0 3 ≠ 7 →
      exec .process s = .next (completed { s with
        dout := (s.modeStep s.din s.blkidx).y
        rsmIdx := 0
        chain := (s.modeStep s.din s.blkidx).chain
        tagacc := (s.modeStep s.din s.blkidx).tagacc
        siglen := siglenAfter s.siglen s.blkidx (s.modeStep s.din s.blkidx).y
        blkidx := s.blkidx + 1 })) ∧
    (Issuing s → s.session = false ∨ s.blkidx = s.msglen →
      exec .process s = .next (rejected s .seq))

/-- 43_modes.md R136 to R146: the step of every mode and direction. MODE is CTRL[2:0], DIR is CTRL[3],
TAGFSEL is CTRL[4]; tmul is 40_field_engine.md R94. -/
def Obligations.StepOfEachMode : Prop :=
  ∀ (s : State) (x i : Block),
    let E := encryptBlock s.keys s.fpoly16
    let D := decryptBlock s.keys s.fpoly16
    let mode := s.ctrl.extractLsb' 0 3
    let decrypts := s.ctrl.getLsbD 3
    let Pt := if s.ctrl.getLsbD 4 then s.fpoly8.toNat else s.fpoly16.toNat
    let r := s.modeStep x i
    (mode = 0 → r = ⟨if decrypts then D x else E x, s.chain, s.tagacc⟩) ∧
    (mode = 1 → decrypts = false → r = ⟨E (x ^^^ s.chain), E (x ^^^ s.chain), s.tagacc⟩) ∧
    (mode = 1 → decrypts = true → r = ⟨D x ^^^ s.chain, x, s.tagacc⟩) ∧
    (mode = 2 → decrypts = false → r = ⟨E (x ^^^ s.chain), E (x ^^^ s.chain) ^^^ x, s.tagacc⟩) ∧
    (mode = 2 → decrypts = true →
      r = ⟨D x ^^^ s.chain, x ^^^ (D x ^^^ s.chain), s.tagacc⟩) ∧
    (mode = 3 → decrypts = false → r = ⟨E s.chain ^^^ x, E s.chain ^^^ x, s.tagacc⟩) ∧
    (mode = 3 → decrypts = true → r = ⟨E s.chain ^^^ x, x, s.tagacc⟩) ∧
    (mode = 4 → r = ⟨E s.chain ^^^ x, E s.chain, s.tagacc⟩) ∧
    (mode = 5 → r = ⟨E (s.iv + i) ^^^ x, s.chain, s.tagacc⟩) ∧
    (mode = 6 → decrypts = false →
      r = ⟨E (s.iv + i + 1) ^^^ x, s.chain,
        tmul (s.tagacc ^^^ (E (s.iv + i + 1) ^^^ x)) s.hsub Pt⟩) ∧
    (mode = 6 → decrypts = true →
      r = ⟨E (s.iv + i + 1) ^^^ x, s.chain, tmul (s.tagacc ^^^ x) s.hsub Pt⟩) ∧
    (mode = 6 → s.ctrl.getLsbD 4 = false → s.fpoly16.getLsbD 16 = true → r.tagacc.toNat < 2 ^ 16) ∧
    (mode = 6 → s.ctrl.getLsbD 4 = true → s.fpoly8.getLsbD 8 = true → r.tagacc.toNat < 2 ^ 8)

/-- 43_modes.md R134: FINAL. With a valid tag polynomial bits 63:16 of the finished tag are ZBLK's. -/
def Obligations.FinalClosesSession : Prop :=
  OnlyWord .final 0x00000012 ∧ TurnedAwayWhileBusy .final ∧
  ∀ s : State,
    let Pt := if s.ctrl.getLsbD 4 then s.fpoly8.toNat else s.fpoly16.toNat
    let tf := tmul (s.tagacc ^^^ s.msglen) s.hsub Pt ^^^ s.zblk
    let runs := Completing s (s.session = true ∧ s.blkidx = s.msglen)
    (runs → s.ctrl.extractLsb' 0 3 ≠ 6 →
      exec .final s = .next (completed { s with session := false })) ∧
    (runs → s.ctrl.extractLsb' 0 3 = 6 → s.ctrl.getLsbD 3 = false →
      exec .final s = .next (completed { s with session := false, dout := tf, rsmIdx := 0 })) ∧
    (runs → s.ctrl.extractLsb' 0 3 = 6 → s.ctrl.getLsbD 3 = true → tf = s.din →
      exec .final s = .next (completed { s with
        session := false, authValid := true, authOk := true })) ∧
    (runs → s.ctrl.extractLsb' 0 3 = 6 → s.ctrl.getLsbD 3 = true → tf ≠ s.din →
      exec .final s = .next (completed { s with
        session := false, authValid := true, authOk := false,
        irqStat := s.irqStat ||| 0b100#3 })) ∧
    (Issuing s → s.session = false ∨ s.blkidx ≠ s.msglen →
      exec .final s = .next (rejected s .seq)) ∧
    (s.fpoly16.getLsbD 16 = true → (s.ctrl.getLsbD 4 = true → s.fpoly8.getLsbD 8 = true) →
      tf.extractLsb' 16 48 = s.zblk.extractLsb' 16 48)

/-- 43_modes.md R135: ABORT. -/
def Obligations.AbortDropsSession : Prop :=
  OnlyWord .abort 0x00000013 ∧ TurnedAwayWhileBusy .abort ∧
  ∀ s : State, Completing s True → exec .abort s = .next (completed { s with session := false })

/-- 40_field_engine.md R97: GF_MUL. The result is below 2^n. -/
def Obligations.GfMulMultiplies : Prop :=
  FieldWords .gfMul 0x00000020 0x00000120 ∧ (∀ f, TurnedAwayWhileBusy (.gfMul f)) ∧
  ∀ s : State,
    (Completing s (s.fpoly8.getLsbD 8 = true) →
      exec (.gfMul .deg8) s = .next (completed { s with
        gfR := BitVec.ofNat 16 (gfMul s.gfA.toNat s.gfB.toNat s.fpoly8.toNat) })) ∧
    (Completing s (s.fpoly16.getLsbD 16 = true) →
      exec (.gfMul .deg16) s = .next (completed { s with
        gfR := BitVec.ofNat 16 (gfMul s.gfA.toNat s.gfB.toNat s.fpoly16.toNat) })) ∧
    (s.fpoly8.getLsbD 8 = true → gfMul s.gfA.toNat s.gfB.toNat s.fpoly8.toNat < 2 ^ 8) ∧
    (s.fpoly16.getLsbD 16 = true → gfMul s.gfA.toNat s.gfB.toNat s.fpoly16.toNat < 2 ^ 16) ∧
    (Issuing s → s.fpoly8.getLsbD 8 = false →
      exec (.gfMul .deg8) s = .next (rejected s .badfield)) ∧
    (Issuing s → s.fpoly16.getLsbD 16 = false →
      exec (.gfMul .deg16) s = .next (rejected s .badfield))

/-- 40_field_engine.md R98: GF_INV. -/
def Obligations.GfInvInverts : Prop :=
  FieldWords .gfInv 0x00000021 0x00000121 ∧ (∀ f, TurnedAwayWhileBusy (.gfInv f)) ∧
  ∀ s : State,
    (Completing s (s.fpoly8.getLsbD 8 = true) →
      exec (.gfInv .deg8) s = .next (completed { s with
        gfR := BitVec.ofNat 16 (gfInv s.gfA.toNat s.fpoly8.toNat)
        inv0 := decide (pmod s.gfA.toNat s.fpoly8.toNat = 0) })) ∧
    (Completing s (s.fpoly16.getLsbD 16 = true) →
      exec (.gfInv .deg16) s = .next (completed { s with
        gfR := BitVec.ofNat 16 (gfInv s.gfA.toNat s.fpoly16.toNat)
        inv0 := decide (pmod s.gfA.toNat s.fpoly16.toNat = 0) })) ∧
    (Issuing s → s.fpoly8.getLsbD 8 = false →
      exec (.gfInv .deg8) s = .next (rejected s .badfield)) ∧
    (Issuing s → s.fpoly16.getLsbD 16 = false →
      exec (.gfInv .deg16) s = .next (rejected s .badfield))

/-- 40_field_engine.md R99: GF_ORDER. -/
def Obligations.GfOrderFindsOrder : Prop :=
  FieldWords .gfOrder 0x00000022 0x00000122 ∧ (∀ f, TurnedAwayWhileBusy (.gfOrder f)) ∧
  ∀ s : State,
    (Completing s (s.fpoly8.getLsbD 8 = true) →
      exec (.gfOrder .deg8) s = .next (completed { s with
        gfR := BitVec.ofNat 16 (gfOrder s.gfA.toNat s.fpoly8.toNat)
        inv0 := decide (pmod s.gfA.toNat s.fpoly8.toNat = 0) })) ∧
    (Completing s (s.fpoly16.getLsbD 16 = true) →
      exec (.gfOrder .deg16) s = .next (completed { s with
        gfR := BitVec.ofNat 16 (gfOrder s.gfA.toNat s.fpoly16.toNat)
        inv0 := decide (pmod s.gfA.toNat s.fpoly16.toNat = 0) })) ∧
    (Issuing s → s.fpoly8.getLsbD 8 = false →
      exec (.gfOrder .deg8) s = .next (rejected s .badfield)) ∧
    (Issuing s → s.fpoly16.getLsbD 16 = false →
      exec (.gfOrder .deg16) s = .next (rejected s .badfield))

/-- 42_adapter.md R121: SEG_POP. The block is zero-padded from position SEG_CNT on wherever SEGBUF is, as
it is in every state a run reaches (10_state.md R53; `Obligations.InvKeptByEveryStep`). -/
def Obligations.SegPopMovesBlock : Prop :=
  OnlyWord .segPop 0x00000030 ∧ TurnedAwayWhileBusy .segPop ∧
  ∀ s : State,
    (Completing s (s.segCnt ≠ 0) →
      exec .segPop s = .next (completed { s with din := s.segbuf, segbuf := 0, segCnt := 0 })) ∧
    (Completing s (s.segCnt ≠ 0) → SegmenterPadded s →
      ∃ t, exec .segPop s = .next t ∧
        ∀ j : Nat, s.segCnt.val ≤ j → j < 8 → blockByte t.din j = 0) ∧
    (Issuing s → s.segCnt = 0 → exec .segPop s = .next (rejected s .seq))

/-- 42_adapter.md R122: SEG_CLEAR. -/
def Obligations.SegClearEmptiesSegmenter : Prop :=
  OnlyWord .segClear 0x00000031 ∧ TurnedAwayWhileBusy .segClear ∧
  ∀ s : State, Completing s True →
    exec .segClear s = .next (completed { s with segbuf := 0, segCnt := 0 })

/-- 42_adapter.md R125: RSM_REWIND. -/
def Obligations.RsmRewindRestarts : Prop :=
  OnlyWord .rsmRewind 0x00000032 ∧ TurnedAwayWhileBusy .rsmRewind ∧
  ∀ s : State, Completing s True → exec .rsmRewind s = .next (completed { s with rsmIdx := 0 })

/-! ### The bus -/

/-- 20_memory.md R66: an access of another width or at another offset is rejected with ALIGN and
slverr, has no other effect, and a read returns some value v (a free value, log 4). -/
def Obligations.MisalignedAccessRejected : Prop :=
  ∀ (s : State) (off : BitVec 8),
    (∀ n : Nat, n ≠ 4 ∨ off.toNat % 4 ≠ 0 →
      ∃ v : Word, Serves s (.read off n)
        { rejected s .align with slverr := true, rdata := v, free := s.free + 1 }) ∧
    (∀ (strb : BitVec 4) (v : Word), strb ≠ 0b1111 ∨ off.toNat % 4 ≠ 0 →
      Serves s (.write off strb v) { rejected s .align with slverr := true })

/-- 10_state.md R20, its first two sentences: reserved offsets read 0 and ignore writes, with no error,
whether or not a command is in flight or a session is open. -/
def Obligations.ReservedOffsetsReadZero : Prop :=
  ∀ (s : State) (off : BitVec 8), off.toNat % 4 = 0 →
    off = 0x1C ∨ off = 0x7C ∨ 0x98 ≤ off.toNat →
    Serves s (readAt off) { answered s with rdata := 0 } ∧
    ∀ v : Word, Serves s (writeAt off v) (answered s)

/-- 10_state.md R21: writes to the read-only registers are ignored, reads of the write-only ones return
0, at any time. -/
def Obligations.ReadOnlyAndWriteOnly : Prop :=
  (∀ (s : State) (off : BitVec 8) (v : Word),
    off ∈ ([0x00, 0x04, 0x48, 0x4C, 0x50, 0x54, 0x58, 0x5C, 0x78, 0x84, 0x8C, 0x94] : List (BitVec 8)) →
    Serves s (writeAt off v) (answered s)) ∧
  ∀ (s : State) (off : BitVec 8), off ∈ ([0x0C, 0x80] : List (BitVec 8)) →
    Serves s (readAt off) { answered s with rdata := 0 }

/-- 10_state.md R22: a write to a locked register in a session is rejected with LOCKED. -/
def Obligations.LockedWriteRejected : Prop :=
  ∀ (s : State) (off : BitVec 8) (v : Word), s.session = true → s.pending = none →
    off ∈ ([0x08, 0x20, 0x24, 0x28, 0x2C, 0x30, 0x34, 0x38, 0x3C, 0x60, 0x64, 0x68, 0x6C] : List (BitVec 8)) →
    Serves s (writeAt off v) (rejected (answered s) .locked)

/-- 10_state.md R23: while a command is in flight a write to ERRCODE, IRQ_EN or IRQ_STAT takes effect,
the SOFT_RESET word resets the core, and a write to any other writable register (CMD with any other
word among them) is rejected with BUSY. -/
def Obligations.WritesWhileBusy : Prop :=
  ∀ (s : State) (v : Word), s.pending ≠ none →
    Serves s (writeAt 0x10 v) { answered s with errcode := .none } ∧
    Serves s (writeAt 0x14 v) { answered s with irqEn := v.extractLsb' 0 3 } ∧
    Serves s (writeAt 0x18 v)
      { answered s with irqStat := s.irqStat &&& ~~~(v.extractLsb' 0 3) } ∧
    (∃ t, Serves s (writeAt 0x0C 0xFF) t ∧ ResetFrom s t) ∧
    (v ≠ 0xFF → Serves s (writeAt 0x0C v) (rejected (answered s) .busy)) ∧
    ∀ off : BitVec 8,
      off ∈ ([0x08, 0x20, 0x24, 0x28, 0x2C, 0x30, 0x34, 0x38, 0x3C, 0x40, 0x44, 0x60, 0x64, 0x68,
        0x6C, 0x70, 0x74, 0x80, 0x88, 0x90] : List (BitVec 8)) →
      Serves s (writeAt off v) (rejected (answered s) .busy)

/-- 10_state.md R19, R20, R27, R33 to R35, R39 to R41, R45, R46: an accepted write stores the bits the
register uses and discards the rest; writing one half of a 64-bit register leaves the other
unchanged. -/
def Obligations.AcceptedWritesStore : Prop :=
  ∀ (s : State) (v : Word), s.pending = none →
    (s.session = false →
      Serves s (writeAt 0x08 v) { answered s with ctrl := v.extractLsb' 0 5 } ∧
      Serves s (writeAt 0x30 v) { answered s with iv := s.iv.extractLsb' 32 32 ++ v } ∧
      Serves s (writeAt 0x34 v) { answered s with iv := v ++ s.iv.extractLsb' 0 32 } ∧
      Serves s (writeAt 0x38 v) { answered s with msglen := s.msglen.extractLsb' 32 32 ++ v } ∧
      Serves s (writeAt 0x3C v) { answered s with msglen := v ++ s.msglen.extractLsb' 0 32 } ∧
      Serves s (writeAt 0x60 v) { answered s with fpoly8 := v.extractLsb' 0 9 } ∧
      Serves s (writeAt 0x64 v) { answered s with fgen8 := v.extractLsb' 0 8 } ∧
      Serves s (writeAt 0x68 v) { answered s with fpoly16 := v.extractLsb' 0 17 } ∧
      Serves s (writeAt 0x6C v) { answered s with fgen16 := v.extractLsb' 0 16 }) ∧
    Serves s (writeAt 0x40 v) { answered s with din := s.din.extractLsb' 32 32 ++ v } ∧
    Serves s (writeAt 0x44 v) { answered s with din := v ++ s.din.extractLsb' 0 32 } ∧
    Serves s (writeAt 0x70 v) { answered s with gfA := v.extractLsb' 0 16 } ∧
    Serves s (writeAt 0x74 v) { answered s with gfB := v.extractLsb' 0 16 } ∧
    Serves s (writeAt 0x88 v) { answered s with ksidx := v.extractLsb' 0 6 } ∧
    Serves s (writeAt 0x90 v) { answered s with sboxIdx := v.extractLsb' 0 9 }

/-- 10_state.md R32: an accepted write to a key word stores it and clears KEY_VALID, whether or not the
value changes; the schedule stays. -/
def Obligations.KeyWriteClearsKeyValid : Prop :=
  ∀ (s : State) (v : Word), s.pending = none → s.session = false →
    Serves s (writeAt 0x20 v) { answered s with key0 := v, keyValid := false } ∧
    Serves s (writeAt 0x24 v) { answered s with key1 := v, keyValid := false } ∧
    Serves s (writeAt 0x28 v) { answered s with key2 := v, keyValid := false } ∧
    Serves s (writeAt 0x2C v) { answered s with key3 := v, keyValid := false }

/-- 60_exceptions.md R171 (with 10_state.md R29, R30, R31): the host's acknowledgement, at any time:
ones written to IRQ_STAT clear those bits, any write to ERRCODE sets NONE, IRQ_EN takes its three
bits. -/
def Obligations.HostAcknowledges : Prop :=
  ∀ (s : State) (v : Word),
    Serves s (writeAt 0x18 v)
      { answered s with irqStat := s.irqStat &&& ~~~(v.extractLsb' 0 3) } ∧
    Serves s (writeAt 0x10 v) { answered s with errcode := .none } ∧
    Serves s (writeAt 0x14 v) { answered s with irqEn := v.extractLsb' 0 3 }

/-- 60_exceptions.md R168: irq is the OR of IRQ_STAT[k] & IRQ_EN[k] over k in 0, 1, 2. -/
def Obligations.IrqIsEnabledPending : Prop :=
  ∀ s : State, s.irq = true ↔
    ∃ k : Nat, k < 3 ∧ s.irqStat.getLsbD k = true ∧ s.irqEn.getLsbD k = true

/-- 10_state.md R18, R19, R25, R26: with no command in flight a read returns the register's value, its
reserved bits 0, and changes nothing else. ERRCODE reads the number 60_exceptions.md R161 gives each
error. -/
def Obligations.ReadsReturnRegisters : Prop :=
  ∀ s : State, s.pending = none →
    let returns := fun (off : BitVec 8) (v : Word) => Serves s (readAt off) { answered s with rdata := v }
    returns 0x00 0x46454937 ∧
    returns 0x04 (0#16 ++ BitVec.ofNat 4 s.rsmIdx.val ++ BitVec.ofNat 4 s.segCnt.val ++ 0#1 ++
      BitVec.ofBool s.inv0 ++ BitVec.ofBool s.authOk ++ BitVec.ofBool s.authValid ++
      BitVec.ofBool (s.session && s.blkidx == s.msglen) ++ BitVec.ofBool s.session ++
      BitVec.ofBool s.keyValid ++ 0#1) ∧
    returns 0x08 (s.ctrl.setWidth 32) ∧
    (s.errcode = .none → returns 0x10 0) ∧ (s.errcode = .align → returns 0x10 1) ∧
    (s.errcode = .badcmd → returns 0x10 2) ∧ (s.errcode = .busy → returns 0x10 3) ∧
    (s.errcode = .seq → returns 0x10 4) ∧ (s.errcode = .nokey → returns 0x10 5) ∧
    (s.errcode = .badfield → returns 0x10 6) ∧ (s.errcode = .badmode → returns 0x10 7) ∧
    (s.errcode = .locked → returns 0x10 8) ∧ (s.errcode = .segfull → returns 0x10 9) ∧
    returns 0x14 (s.irqEn.setWidth 32) ∧ returns 0x18 (s.irqStat.setWidth 32) ∧
    returns 0x20 s.key0 ∧ returns 0x24 s.key1 ∧ returns 0x28 s.key2 ∧ returns 0x2C s.key3 ∧
    returns 0x30 (s.iv.extractLsb' 0 32) ∧ returns 0x34 (s.iv.extractLsb' 32 32) ∧
    returns 0x38 (s.msglen.extractLsb' 0 32) ∧ returns 0x3C (s.msglen.extractLsb' 32 32) ∧
    returns 0x40 (s.din.extractLsb' 0 32) ∧ returns 0x44 (s.din.extractLsb' 32 32) ∧
    returns 0x48 (s.dout.extractLsb' 0 32) ∧ returns 0x4C (s.dout.extractLsb' 32 32) ∧
    returns 0x50 (s.blkidx.extractLsb' 0 32) ∧ returns 0x54 (s.blkidx.extractLsb' 32 32) ∧
    returns 0x58 (s.siglen.extractLsb' 0 32) ∧ returns 0x5C (s.siglen.extractLsb' 32 32) ∧
    returns 0x60 (s.fpoly8.setWidth 32) ∧ returns 0x64 (s.fgen8.setWidth 32) ∧
    returns 0x68 (s.fpoly16.setWidth 32) ∧ returns 0x6C (s.fgen16.setWidth 32) ∧
    returns 0x70 (s.gfA.setWidth 32) ∧ returns 0x74 (s.gfB.setWidth 32) ∧
    returns 0x78 (s.gfR.setWidth 32) ∧ returns 0x88 (s.ksidx.setWidth 32) ∧
    returns 0x90 (s.sboxIdx.setWidth 32)

/-- 10_state.md R24: while a command is in flight a read of a result register returns some value (a free
value, log 4) and BYTE_OUT does not advance; STATUS reads bit 0 = 1, bit 7 = 0 and bits 31:16 = 0; any
other register reads its value, ERRCODE the number 60_exceptions.md R161 gives the error. -/
def Obligations.ReadsWhileBusy : Prop :=
  ∀ s : State, s.pending ≠ none →
    let returns := fun (off : BitVec 8) (v : Word) => Serves s (readAt off) { answered s with rdata := v }
    (∀ off : BitVec 8,
      off ∈ ([0x48, 0x4C, 0x50, 0x54, 0x58, 0x5C, 0x78, 0x84, 0x8C, 0x94] : List (BitVec 8)) →
      ∃ v : Word, Serves s (readAt off) { answered s with rdata := v, free := s.free + 1 }) ∧
    (∃ v : Word, Serves s (readAt 0x04) { answered s with rdata := v, free := s.free + 1 } ∧
      v.getLsbD 0 = true ∧ v.getLsbD 7 = false ∧ v.extractLsb' 16 16 = 0) ∧
    returns 0x00 0x46454937 ∧
    returns 0x08 (s.ctrl.setWidth 32) ∧
    (s.errcode = .none → returns 0x10 0) ∧ (s.errcode = .align → returns 0x10 1) ∧
    (s.errcode = .badcmd → returns 0x10 2) ∧ (s.errcode = .busy → returns 0x10 3) ∧
    (s.errcode = .seq → returns 0x10 4) ∧ (s.errcode = .nokey → returns 0x10 5) ∧
    (s.errcode = .badfield → returns 0x10 6) ∧ (s.errcode = .badmode → returns 0x10 7) ∧
    (s.errcode = .locked → returns 0x10 8) ∧ (s.errcode = .segfull → returns 0x10 9) ∧
    returns 0x14 (s.irqEn.setWidth 32) ∧ returns 0x18 (s.irqStat.setWidth 32) ∧
    returns 0x20 s.key0 ∧ returns 0x24 s.key1 ∧ returns 0x28 s.key2 ∧ returns 0x2C s.key3 ∧
    returns 0x30 (s.iv.extractLsb' 0 32) ∧ returns 0x34 (s.iv.extractLsb' 32 32) ∧
    returns 0x38 (s.msglen.extractLsb' 0 32) ∧ returns 0x3C (s.msglen.extractLsb' 32 32) ∧
    returns 0x40 (s.din.extractLsb' 0 32) ∧ returns 0x44 (s.din.extractLsb' 32 32) ∧
    returns 0x60 (s.fpoly8.setWidth 32) ∧ returns 0x64 (s.fgen8.setWidth 32) ∧
    returns 0x68 (s.fpoly16.setWidth 32) ∧ returns 0x6C (s.fgen16.setWidth 32) ∧
    returns 0x70 (s.gfA.setWidth 32) ∧ returns 0x74 (s.gfB.setWidth 32) ∧
    returns 0x88 (s.ksidx.setWidth 32) ∧ returns 0x90 (s.sboxIdx.setWidth 32)

/-- 42_adapter.md R120: an accepted write to BYTE_IN appends its low byte at position SEG_CNT of SEGBUF,
in a session or not; the ninth byte is rejected with SEGFULL, and any byte with BUSY while a command is
in flight. -/
def Obligations.ByteInAppends : Prop :=
  ∀ (s : State) (v : Word),
    (s.pending = none → ∀ h : s.segCnt.val < 8,
      Serves s (writeAt 0x80 v) { answered s with
        segbuf := s.segbuf ||| ((v.extractLsb' 0 8).setWidth 64 <<< (56 - 8 * s.segCnt.val))
        segCnt := ⟨s.segCnt.val + 1, by omega⟩ }) ∧
    (s.pending = none → s.segCnt.val = 8 →
      Serves s (writeAt 0x80 v) (rejected (answered s) .segfull)) ∧
    (s.pending ≠ none → Serves s (writeAt 0x80 v) (rejected (answered s) .busy))

/-- 42_adapter.md R123: a read of BYTE_OUT returns byte RSM_IDX of DOUT, position 0 first, and advances;
past the eighth it returns 0. While a command is in flight it returns some value and does not
advance. -/
def Obligations.ByteOutAdvances : Prop :=
  ∀ s : State,
    (s.pending = none → ∀ h : s.rsmIdx.val < 8,
      Serves s (readAt 0x84) { answered s with
        rdata := (s.dout.extractLsb' (56 - 8 * s.rsmIdx.val) 8).setWidth 32
        rsmIdx := ⟨s.rsmIdx.val + 1, by omega⟩ }) ∧
    (s.pending = none → s.rsmIdx.val = 8 →
      Serves s (readAt 0x84) { answered s with rdata := 0 }) ∧
    (s.pending ≠ none → ∃ v : Word,
      Serves s (readAt 0x84) { answered s with rdata := v, free := s.free + 1 })

/-- 10_state.md R45, R46: with no command in flight and KEY_VALID = 1, KSDATA reads subkey KIND[ROUND]
and SBOX_DATA entry INDEX of box BOX; with KEY_VALID = 0 each reads some value of its width. -/
def Obligations.DebugWindowsRead : Prop :=
  ∀ s : State, s.pending = none →
    (s.keyValid = true → ∀ r : Fin 8, s.ksidx.extractLsb' 0 3 = BitVec.ofNat 3 r.val →
      let reads := fun v : Half => Serves s (readAt 0x8C) { answered s with rdata := v.setWidth 32 }
      (s.ksidx.extractLsb' 3 3 = 0 → reads s.keys.kl1[r]) ∧
      (s.ksidx.extractLsb' 3 3 = 1 → reads s.keys.kl2[r]) ∧
      (s.ksidx.extractLsb' 3 3 = 2 → reads s.keys.ko1[r]) ∧
      (s.ksidx.extractLsb' 3 3 = 3 → reads s.keys.ko2[r]) ∧
      (s.ksidx.extractLsb' 3 3 = 4 → reads s.keys.ko3[r]) ∧
      (s.ksidx.extractLsb' 3 3 = 5 → reads s.keys.ki1[r]) ∧
      (s.ksidx.extractLsb' 3 3 = 6 → reads s.keys.ki2[r]) ∧
      (s.ksidx.extractLsb' 3 3 = 7 → reads s.keys.ki3[r])) ∧
    (s.keyValid = true → ∀ e : Fin 256, s.sboxIdx.extractLsb' 0 8 = BitVec.ofNat 8 e.val →
      let reads := fun v : Byte => Serves s (readAt 0x94) { answered s with rdata := v.setWidth 32 }
      (s.sboxIdx.getLsbD 8 = false → reads s.keys.sbox1[e]) ∧
      (s.sboxIdx.getLsbD 8 = true → reads s.keys.sbox2[e])) ∧
    (s.keyValid = false →
      (∃ v : Half, Serves s (readAt 0x8C)
        { answered s with rdata := v.setWidth 32, free := s.free + 1 }) ∧
      (∃ v : Byte, Serves s (readAt 0x94)
        { answered s with rdata := v.setWidth 32, free := s.free + 1 }))

/-- 20_memory.md R61, R69: an aligned read at any offset but BYTE_OUT's changes only the port's answer
and the count of free values drawn, in every state. -/
def Obligations.ReadsChangeNothing : Prop :=
  ∀ (s : State) (off : BitVec 8), off.toNat % 4 = 0 → off ≠ 0x84 →
    ∃ (v : Word) (n : Nat), Serves s (readAt off) { answered s with rdata := v, free := n }

/-! ### Reset -/

/-- 70_reset_and_hazards.md R180: what the host reads after reset: ID its constant, KSDATA and SBOX_DATA
some value (KEY_VALID = 0), and every other offset 0; no command is in flight and irq is 0. The port's
record before the first access (0) is the model's choice, log 8. -/
def Obligations.ResetReadsZero : Prop :=
  State.reset.pending = none ∧ State.reset.irq = false ∧ State.reset.segbuf = 0 ∧
  Serves State.reset (readAt 0x00) { State.reset with rdata := 0x46454937 } ∧
  (∀ off : BitVec 8, off.toNat % 4 = 0 →
    off ∉ ([0x00, 0x84, 0x8C, 0x94] : List (BitVec 8)) →
    Serves State.reset (readAt off) State.reset) ∧
  Serves State.reset (readAt 0x84) { State.reset with rsmIdx := 1 } ∧
  (∃ v : Half, Serves State.reset (readAt 0x8C)
    { State.reset with rdata := v.setWidth 32, free := 1 }) ∧
  (∃ v : Byte, Serves State.reset (readAt 0x94)
    { State.reset with rdata := v.setWidth 32, free := 1 })

/-! ### The field engine -/

/-- 40_field_engine.md R88: clmul is the XOR of a shifted by each set bit of b; its width, and a zero
operand. -/
def Obligations.ClmulIsCarryless : Prop :=
  (∀ a b k : Nat, (clmul a b).testBit k =
    ((List.range (k + 1)).foldl (fun t i => t ^^ (b.testBit i && a.testBit (k - i))) false)) ∧
  (∀ a b wa wb : Nat, a ≠ 0 → b ≠ 0 → a < 2 ^ wa → b < 2 ^ wb → clmul a b < 2 ^ (wa + wb - 1)) ∧
  ∀ a : Nat, clmul a 0 = 0 ∧ clmul 0 a = 0

/-- 40_field_engine.md R89: pmod is the remainder of x divided by P over GF(2), below 2^n. -/
def Obligations.PmodIsRemainder : Prop :=
  ∀ x P : Nat, 1 ≤ deg P →
    pmod x P < 2 ^ deg P ∧ ∃ q : Nat, x = clmul q P ^^^ pmod x P

/-- 40_field_engine.md R90: gf_mul is the remainder of the carry-less product, and reducing the operands
first does not change it. -/
def Obligations.GfMulReducesOperands : Prop :=
  ∀ a b P : Nat, 1 ≤ deg P →
    gfMul a b P = pmod (clmul a b) P ∧ pmod (clmul (pmod a P) (pmod b P)) P = gfMul a b P

/-- 40_field_engine.md R91: gf_pow follows its recursion and stays below 2^n. -/
def Obligations.GfPowRecursion : Prop :=
  ∀ a P : Nat, 1 ≤ deg P →
    pmod 1 P = 1 ∧ gfPow a 0 P = 1 ∧
    ∀ e : Nat, gfPow a (e + 1) P = gfMul (gfPow a e P) a P ∧ gfPow a e P < 2 ^ deg P

/-- 40_field_engine.md R92: gf_inv is the power 2^n - 2. For an irreducible P it is the multiplicative
inverse of an operand that is not 0 modulo P, and for an operand that is 0 it is the sentinel 0 (n of at
least 2; the core supports 8 and 16). For the reducible P = 0x100 it is 0 at a = 2. -/
def Obligations.GfInvIsInverse : Prop :=
  (∀ a P : Nat, 1 ≤ deg P → gfInv a P = gfPow a (2 ^ deg P - 2) P) ∧
  (∀ a P : Nat, 1 ≤ deg P → (∀ x y : Nat, clmul x y = P → x = 1 ∨ y = 1) → pmod a P ≠ 0 →
    gfMul a (gfInv a P) P = 1) ∧
  (∀ a P : Nat, 2 ≤ deg P → pmod a P = 0 → gfInv a P = 0) ∧
  gfInv 2 0x100 = 0

/-- 40_field_engine.md R93: gf_order is the least k from 1 to 2^n - 1 with x^k = 1, x the reduced
operand, and 0 when x is 0 or there is none. -/
def Obligations.GfOrderIsLeast : Prop :=
  ∀ a P : Nat, 1 ≤ deg P →
    (pmod a P = 0 → gfOrder a P = 0) ∧
    (pmod a P ≠ 0 → gfOrder a P ≠ 0 →
      gfOrder a P ≤ 2 ^ deg P - 1 ∧ gfPow (pmod a P) (gfOrder a P) P = 1 ∧
      ∀ k : Nat, 1 ≤ k → k < gfOrder a P → gfPow (pmod a P) k P ≠ 1) ∧
    (pmod a P ≠ 0 → gfOrder a P = 0 →
      ∀ k : Nat, 1 ≤ k → k ≤ 2 ^ deg P - 1 → gfPow (pmod a P) k P ≠ 1)

/-! ### The block primitive -/

/-- 41_block_primitive.md R101, R102, R103, R105: the subkeys of every round from the words of the key and
of the modified key, and the two S-boxes, SBOX1 from the key and SBOX2 from the modified key. -/
def Obligations.SubkeysOfEachRound : Prop :=
  ∀ (k c : Key) (i : Fin 8),
    let K := fun j : Nat => k.extractLsb' (112 - 16 * (j % 8)) 16
    let K' := fun j : Nat => (k ^^^ c).extractLsb' (112 - 16 * (j % 8)) 16
    let ks := deriveSchedule k c
    ks.kl1[i] = (K i.val).rotateLeft 1 ∧ ks.kl2[i] = K' (i.val + 2) ∧
    ks.ko1[i] = (K (i.val + 1)).rotateLeft 5 ∧ ks.ko2[i] = (K (i.val + 5)).rotateLeft 8 ∧
    ks.ko3[i] = (K (i.val + 6)).rotateLeft 13 ∧ ks.ki1[i] = K' (i.val + 4) ∧
    ks.ki2[i] = K' (i.val + 3) ∧ ks.ki3[i] = K' (i.val + 7) ∧
    IsSbox k ks.sbox1 ∧ IsSbox (k ^^^ c) ks.sbox2

/-- 41_block_primitive.md R105: each S-box is a permutation of 0..255. -/
def Obligations.SboxIsPermutation : Prop :=
  ∀ k : Key, (generateSbox k).toList.Perm ((List.range 256).map (BitVec.ofNat 8))

/-- 41_block_primitive.md R112: D and E undo each other for every schedule (so for every key and
KEYMOD_C), every FPOLY16 and every block. E is the eight rounds of R110, with the round function F of
R109 written out from FI (R106), FO (R107) and FL (R108). -/
def Obligations.DecryptionUndoesEncryption : Prop :=
  ∀ (ks : KeySchedule) (p16 : BitVec 17),
    let FI := fun x ki : Half =>
      (ks.sbox1[(ki.extractLsb' 8 8).toNat]'(BitVec.isLt _) ++
        ks.sbox2[(ki.extractLsb' 0 8).toNat]'(BitVec.isLt _)) ^^^ (x >>> 2)
    let subRound := fun (KO KI : Half) (h : Half × Half) => (h.2, FI (h.1 ^^^ KO) KI ^^^ h.2)
    let FO := fun (x : Word) (r : Fin 8) =>
      let h := subRound ks.ko3[r] ks.ki3[r] (subRound ks.ko2[r] ks.ki2[r]
        (subRound ks.ko1[r] ks.ki1[r] (x.extractLsb' 16 16, x.extractLsb' 0 16)))
      h.1 ++ h.2
    let inverse := fun x : Half => BitVec.ofNat 16 (gfInv x.toNat p16.toNat)
    let FL := fun (x : Word) (r : Fin 8) =>
      let l := x.extractLsb' 16 16
      let rt := x.extractLsb' 0 16 ^^^ (inverse (l &&& ks.kl1[r])).rotateLeft 1
      (l ^^^ (inverse (rt ||| ks.kl2[r])).rotateLeft 1) ++ rt
    let F := fun (x : Word) (r : Fin 8) => if r.val % 2 = 0 then FL (FO x r) r else FO (FL x r) r
    ∀ b : Block,
      decryptBlock ks p16 (encryptBlock ks p16 b) = b ∧
      encryptBlock ks p16 (decryptBlock ks p16 b) = b ∧
      ∃ left right : Nat → Word,
        left 0 = b.extractLsb' 32 32 ∧ right 0 = b.extractLsb' 0 32 ∧
        (∀ r : Fin 8, left (r.val + 1) = right r.val ^^^ F (left r.val) r ∧
          right (r.val + 1) = left r.val) ∧
        encryptBlock ks p16 b = left 8 ++ right 8

/-! ### The modes and the adapter -/

/-- 43_modes.md R147: for every mode and every list of blocks, a decrypt session fed an encrypt
session's outputs returns the blocks, and in mode 6 with the encrypt session's tag AUTH_OK is 1. Both
sessions start from one state s, in which START is admissible and MSGLEN is the number of blocks; the
host has DIR = 0 in the first and DIR = 1 in the second. `issueNow` completes each command at once
(log 3), which `Obligations.LatencyUnobservable` says no result depends on. -/
def Obligations.SessionRoundTrip : Prop :=
  ∀ (s : State) (xs : List Block) (tag : Block),
    s.pending = none → Admissible .start s → s.ctrl.getLsbD 3 = false → s.msglen.toNat = xs.length →
    ∃ (ys : List Block) (u v : State),
      runSession s xs tag = some (ys, u) ∧
      runSession { s with ctrl := s.ctrl ||| 0b01000#5 } ys u.dout = some (xs, v) ∧
      u.session = false ∧ v.session = false ∧
      (s.ctrl.extractLsb' 0 3 = 6 → v.authValid = true ∧ v.authOk = true)

/-- 43_modes.md R153, its third sentence: in an authenticated decrypt a received tag whose bits 63:16
differ from Z's is always detected. TAGFSEL picks a valid polynomial. -/
def Obligations.TagHighBitsAlwaysChecked : Prop :=
  ∀ s : State, s.turn = .engine → s.ctrl.extractLsb' 0 3 = 6 → s.ctrl.getLsbD 3 = true →
    s.fpoly16.getLsbD 16 = true → (s.ctrl.getLsbD 4 = true → s.fpoly8.getLsbD 8 = true) →
    s.din.extractLsb' 16 48 ≠ s.zblk.extractLsb' 16 48 →
    ∃ t, exec .final s = .next t ∧ t.authValid = true ∧ t.authOk = false ∧
      t.irqStat.getLsbD 2 = true

/-- 43_modes.md R149: in CTR, and in the data blocks of mode 6, block i of two sessions of either
direction under the same key, FPOLY16, mode and IV: the XOR of the outputs is the XOR of the inputs,
whatever data went before (so whatever TAGACC, CHAIN, SIGLEN and DOUT are). -/
def Obligations.KeystreamIndependentOfData : Prop :=
  ∀ s s' : State,
    Completing s (s.session = true ∧ s.blkidx ≠ s.msglen) →
    Completing s' (s'.session = true ∧ s'.blkidx ≠ s'.msglen) →
    s.ctrl.extractLsb' 0 3 = 5 ∨ s.ctrl.extractLsb' 0 3 = 6 →
    s'.ctrl.extractLsb' 0 3 = s.ctrl.extractLsb' 0 3 → s'.keys = s.keys → s'.fpoly16 = s.fpoly16 →
    s'.iv = s.iv → s'.blkidx = s.blkidx →
    ∃ t t', exec .process s = .next t ∧ exec .process s' = .next t' ∧
      t.dout ^^^ t'.dout = s.din ^^^ s'.din

/-- 42_adapter.md R126: after the outputs ys of a session, SIGLEN is the length of their reassembly as
plaintext. -/
def Obligations.SiglenIsStrippedLength : Prop :=
  ∀ ys : List Block, 8 * ys.length < 2 ^ 64 →
    (ys.zipIdx.foldl (fun n y => siglenAfter n (BitVec.ofNat 64 y.2) y.1) (0 : Block)).toNat =
      (reassemble ys .plaintext).length

/-- 42_adapter.md R117, R118: a message's segments reassemble to it, but for the 0x00 bytes at its end
(R119), and there are ⌈L/8⌉ of them. -/
def Obligations.SegmentReassembles : Prop :=
  ∀ m : List Byte, (segment m).length = (m.length + 7) / 8 ∧
    reassemble (segment m) .plaintext = stripTrailingZeros m ∧
    (reassemble (segment m) .ciphertext).take m.length = m

/-! ### Invariants and whole-machine properties -/

/-- The invariant holds after reset. -/
def Obligations.InvAtReset : Prop := Inv State.reset

/-- Every step keeps the invariant: SEGBUF zero from SEG_CNT on (10_state.md R53), the schedule that of
the key while KEY_VALID = 1 (R26), the checks of the command in flight still passed
(60_exceptions.md R166), the session's key, fields, mode and block count (43_modes.md R131, R133), and
the authenticated mode's H, Z and tag width (10_state.md R52; 43_modes.md R145). -/
def Obligations.InvKeptByEveryStep : Prop :=
  ∀ s t : State, Inv s → step s = .next t → Inv t

/-- 70_reset_and_hazards.md R191: the final state after WAIT is the same for every LAT. A word written
to CMD with no command in flight, k polls of STATUS and the engine's completion leave what the same
write leaves when the command completes at once, but for what the polls returned (logs 2, 3). A host
program of that write and WAIT (30_encoding.md R86) is still at its WAIT after k polls while an accepted
command is in flight, and done, with the same state, after the engine's move and one host turn more; its
last read of STATUS has bit 0 = 0 (log 14). -/
def Obligations.LatencyUnobservable : Prop :=
  ∀ (s : State) (w : Word) (k : Nat) (rest : List Input), Inv s → s.pending = none →
    ∃ a b : State,
      core.run (k + 2) { s with
        inputs := .host (writeAt 0x0C w) :: (List.replicate k (.host (readAt 0x04)) ++ .engine :: rest) }
        = .next a ∧
      step { s with inputs := .hostPrompt (writeAt 0x0C w) :: rest } = .next b ∧
      a = { b with rdata := a.rdata, free := a.free, turn := a.turn } ∧
      (∀ i : Instr, decode w = .ok i → i ≠ .softReset → Admissible i s →
        ∃ r, runProgram (.host :: List.replicate k .host) [.bus (writeAt 0x0C w), .wait] s = some r ∧
          r.left = [.wait]) ∧
      ∃ r, runProgram (.host :: (List.replicate k .host ++ [.engine, .host]))
          [.bus (writeAt 0x0C w), .wait] s = some r ∧ r.left = [] ∧
        r.state = { b with
          rdata := r.state.rdata, free := r.state.free, turn := r.state.turn, inputs := [] } ∧
        r.state.rdata.getLsbD 0 = false

/-- 70_reset_and_hazards.md R181: the elements whose reset value is unspecified cannot be observed. Two
states that differ only in them, where they have no meaning, make the same steps, and stay so: every
register, every answer on the bus and irq agree for ever. -/
def Obligations.UnspecifiedResetUnobservable : Prop :=
  ∀ s t s' : State, Inv s → Indistinguishable s t → step s = .next s' →
    ∃ t', step t = .next t' ∧ Indistinguishable s' t' ∧ t'.rdata = s'.rdata ∧ t'.irq = s'.irq

/-! ### Whole messages -/

/-- 42_adapter.md R127, with R119 and 43_modes.md R147: a message moved through an encrypt session as
R127 says, written as ciphertext text (R128), read back (R129), and moved through a decrypt session,
comes back without the 0x00 bytes at its end, and in mode 6 the host reads AUTH_VALID = AUTH_OK = 1.
The message is short enough for SIGLEN not to wrap (42_adapter.md R126). The segmenter is empty at the
start; the options of the two sessions are the same. Each command completes at once (logs 3, 14); the
order of the accesses that R127 leaves open is the model's choice (log 21). -/
def Obligations.MessageRoundTrip : Prop :=
  ∀ (s : State) (o : SessionOptions) (m : List Byte),
    s.pending = none → s.segCnt = 0 → s.segbuf = 0 →
    8 * (byteGroups m).length < 2 ^ 64 →
    Admissible .start { s with ctrl := o.ctrl .encrypt } →
    ∃ (r r' : HostRun) (blocks : List Block) (tag : Option Block),
      promptRun (encryptProgram o m) s = some r ∧ r.left = [] ∧
      blocks.length = (m.length + 7) / 8 ∧
      parseReceived o.mode (ciphertextHex (outputBlocks r.seen)) = .ok (blocks, tag) ∧
      promptRun (decryptProgram o blocks tag) r.state = some r' ∧ r'.left = [] ∧
      plaintextOf r'.seen = stripTrailingZeros m ∧
      (o.mode = .gcm → verdictTrusted r'.seen = true)
end

