-- ==== Sys2Proof/Laws/Field.lean ====
section
/-! SUPPORT. The degree of a carry-less product. -/

namespace Sys2Proof.Machine

/-- The part of a product below bit k of b has no bit at the degree of a plus k or above. -/
theorem clmulBelow_testBit_of_le (a b : Nat) :
    ∀ k j : Nat, a.log2 + k ≤ j → (clmulBelow a b k).testBit j = false
  | 0, j, _ => by simp [clmulBelow]
  | k + 1, j, h => by
    have ha : a.testBit (j - k) = false :=
      Nat.testBit_lt_two_pow
        (lt_of_lt_of_le Nat.lt_log2_self (Nat.pow_le_pow_right (by decide) (by omega)))
    rw [clmulBelow, Nat.testBit_xor, clmulBelow_testBit_of_le a b k j (by omega)]
    split <;> simp [Nat.testBit_shiftLeft, ha]

/-- The top bit of a product of nonzero polynomials is at the sum of their degrees. -/
theorem clmul_testBit_deg {a b : Nat} (ha : a ≠ 0) (hb : b ≠ 0) :
    (clmul a b).testBit (deg a + deg b) = true := by
  unfold clmul deg
  rw [clmulBelow, Nat.testBit_xor, clmulBelow_testBit_of_le a b b.log2 _ (Nat.le_refl _),
    if_pos (Nat.testBit_log2 hb), Nat.testBit_shiftLeft]
  simp [Nat.testBit_log2 ha]

end Sys2Proof.Machine
end

