-- ==== Sys2Proof/Laws/State.lean ====
section
/-! SUPPORT. What each shared update of the state leaves in each field: one lemma per field per
update. -/

namespace Sys2Proof.Machine

/-! ### `State.reject` -/

@[simp] theorem State.reject_ctrl (s : State) (c : ErrCode) : (s.reject c).ctrl = s.ctrl := rfl
@[simp] theorem State.reject_errcode (s : State) (c : ErrCode) : (s.reject c).errcode = c := rfl
@[simp] theorem State.reject_irqEn (s : State) (c : ErrCode) : (s.reject c).irqEn = s.irqEn := rfl
@[simp] theorem State.reject_irqStat (s : State) (c : ErrCode) :
    (s.reject c).irqStat = s.irqStat ||| irqErr := rfl
@[simp] theorem State.reject_key0 (s : State) (c : ErrCode) : (s.reject c).key0 = s.key0 := rfl
@[simp] theorem State.reject_key1 (s : State) (c : ErrCode) : (s.reject c).key1 = s.key1 := rfl
@[simp] theorem State.reject_key2 (s : State) (c : ErrCode) : (s.reject c).key2 = s.key2 := rfl
@[simp] theorem State.reject_key3 (s : State) (c : ErrCode) : (s.reject c).key3 = s.key3 := rfl
@[simp] theorem State.reject_iv (s : State) (c : ErrCode) : (s.reject c).iv = s.iv := rfl
@[simp] theorem State.reject_msglen (s : State) (c : ErrCode) :
    (s.reject c).msglen = s.msglen := rfl
@[simp] theorem State.reject_din (s : State) (c : ErrCode) : (s.reject c).din = s.din := rfl
@[simp] theorem State.reject_dout (s : State) (c : ErrCode) : (s.reject c).dout = s.dout := rfl
@[simp] theorem State.reject_blkidx (s : State) (c : ErrCode) :
    (s.reject c).blkidx = s.blkidx := rfl
@[simp] theorem State.reject_siglen (s : State) (c : ErrCode) :
    (s.reject c).siglen = s.siglen := rfl
@[simp] theorem State.reject_fpoly8 (s : State) (c : ErrCode) :
    (s.reject c).fpoly8 = s.fpoly8 := rfl
@[simp] theorem State.reject_fgen8 (s : State) (c : ErrCode) : (s.reject c).fgen8 = s.fgen8 := rfl
@[simp] theorem State.reject_fpoly16 (s : State) (c : ErrCode) :
    (s.reject c).fpoly16 = s.fpoly16 := rfl
@[simp] theorem State.reject_fgen16 (s : State) (c : ErrCode) :
    (s.reject c).fgen16 = s.fgen16 := rfl
@[simp] theorem State.reject_gfA (s : State) (c : ErrCode) : (s.reject c).gfA = s.gfA := rfl
@[simp] theorem State.reject_gfB (s : State) (c : ErrCode) : (s.reject c).gfB = s.gfB := rfl
@[simp] theorem State.reject_gfR (s : State) (c : ErrCode) : (s.reject c).gfR = s.gfR := rfl
@[simp] theorem State.reject_ksidx (s : State) (c : ErrCode) : (s.reject c).ksidx = s.ksidx := rfl
@[simp] theorem State.reject_sboxIdx (s : State) (c : ErrCode) :
    (s.reject c).sboxIdx = s.sboxIdx := rfl
@[simp] theorem State.reject_keyValid (s : State) (c : ErrCode) :
    (s.reject c).keyValid = s.keyValid := rfl
@[simp] theorem State.reject_session (s : State) (c : ErrCode) :
    (s.reject c).session = s.session := rfl
@[simp] theorem State.reject_authValid (s : State) (c : ErrCode) :
    (s.reject c).authValid = s.authValid := rfl
@[simp] theorem State.reject_authOk (s : State) (c : ErrCode) :
    (s.reject c).authOk = s.authOk := rfl
@[simp] theorem State.reject_inv0 (s : State) (c : ErrCode) : (s.reject c).inv0 = s.inv0 := rfl
@[simp] theorem State.reject_segCnt (s : State) (c : ErrCode) :
    (s.reject c).segCnt = s.segCnt := rfl
@[simp] theorem State.reject_rsmIdx (s : State) (c : ErrCode) :
    (s.reject c).rsmIdx = s.rsmIdx := rfl
@[simp] theorem State.reject_keys (s : State) (c : ErrCode) : (s.reject c).keys = s.keys := rfl
@[simp] theorem State.reject_chain (s : State) (c : ErrCode) : (s.reject c).chain = s.chain := rfl
@[simp] theorem State.reject_tagacc (s : State) (c : ErrCode) :
    (s.reject c).tagacc = s.tagacc := rfl
@[simp] theorem State.reject_hsub (s : State) (c : ErrCode) : (s.reject c).hsub = s.hsub := rfl
@[simp] theorem State.reject_zblk (s : State) (c : ErrCode) : (s.reject c).zblk = s.zblk := rfl
@[simp] theorem State.reject_segbuf (s : State) (c : ErrCode) :
    (s.reject c).segbuf = s.segbuf := rfl
@[simp] theorem State.reject_pending (s : State) (c : ErrCode) :
    (s.reject c).pending = s.pending := rfl
@[simp] theorem State.reject_rdata (s : State) (c : ErrCode) : (s.reject c).rdata = s.rdata := rfl
@[simp] theorem State.reject_slverr (s : State) (c : ErrCode) :
    (s.reject c).slverr = s.slverr := rfl
@[simp] theorem State.reject_keymodC (s : State) (c : ErrCode) :
    (s.reject c).keymodC = s.keymodC := rfl
@[simp] theorem State.reject_free (s : State) (c : ErrCode) : (s.reject c).free = s.free := rfl
@[simp] theorem State.reject_turn (s : State) (c : ErrCode) : (s.reject c).turn = s.turn := rfl
@[simp] theorem State.reject_inputs (s : State) (c : ErrCode) :
    (s.reject c).inputs = s.inputs := rfl

/-! ### `State.rejectAlign` -/

@[simp] theorem State.rejectAlign_ctrl (s : State) : s.rejectAlign.ctrl = s.ctrl := rfl
@[simp] theorem State.rejectAlign_errcode (s : State) : s.rejectAlign.errcode = .align := rfl
@[simp] theorem State.rejectAlign_irqEn (s : State) : s.rejectAlign.irqEn = s.irqEn := rfl
@[simp] theorem State.rejectAlign_irqStat (s : State) :
    s.rejectAlign.irqStat = s.irqStat ||| irqErr := rfl
@[simp] theorem State.rejectAlign_key0 (s : State) : s.rejectAlign.key0 = s.key0 := rfl
@[simp] theorem State.rejectAlign_key1 (s : State) : s.rejectAlign.key1 = s.key1 := rfl
@[simp] theorem State.rejectAlign_key2 (s : State) : s.rejectAlign.key2 = s.key2 := rfl
@[simp] theorem State.rejectAlign_key3 (s : State) : s.rejectAlign.key3 = s.key3 := rfl
@[simp] theorem State.rejectAlign_iv (s : State) : s.rejectAlign.iv = s.iv := rfl
@[simp] theorem State.rejectAlign_msglen (s : State) : s.rejectAlign.msglen = s.msglen := rfl
@[simp] theorem State.rejectAlign_din (s : State) : s.rejectAlign.din = s.din := rfl
@[simp] theorem State.rejectAlign_dout (s : State) : s.rejectAlign.dout = s.dout := rfl
@[simp] theorem State.rejectAlign_blkidx (s : State) : s.rejectAlign.blkidx = s.blkidx := rfl
@[simp] theorem State.rejectAlign_siglen (s : State) : s.rejectAlign.siglen = s.siglen := rfl
@[simp] theorem State.rejectAlign_fpoly8 (s : State) : s.rejectAlign.fpoly8 = s.fpoly8 := rfl
@[simp] theorem State.rejectAlign_fgen8 (s : State) : s.rejectAlign.fgen8 = s.fgen8 := rfl
@[simp] theorem State.rejectAlign_fpoly16 (s : State) : s.rejectAlign.fpoly16 = s.fpoly16 := rfl
@[simp] theorem State.rejectAlign_fgen16 (s : State) : s.rejectAlign.fgen16 = s.fgen16 := rfl
@[simp] theorem State.rejectAlign_gfA (s : State) : s.rejectAlign.gfA = s.gfA := rfl
@[simp] theorem State.rejectAlign_gfB (s : State) : s.rejectAlign.gfB = s.gfB := rfl
@[simp] theorem State.rejectAlign_gfR (s : State) : s.rejectAlign.gfR = s.gfR := rfl
@[simp] theorem State.rejectAlign_ksidx (s : State) : s.rejectAlign.ksidx = s.ksidx := rfl
@[simp] theorem State.rejectAlign_sboxIdx (s : State) : s.rejectAlign.sboxIdx = s.sboxIdx := rfl
@[simp] theorem State.rejectAlign_keyValid (s : State) : s.rejectAlign.keyValid = s.keyValid := rfl
@[simp] theorem State.rejectAlign_session (s : State) : s.rejectAlign.session = s.session := rfl
@[simp] theorem State.rejectAlign_authValid (s : State) :
    s.rejectAlign.authValid = s.authValid := rfl
@[simp] theorem State.rejectAlign_authOk (s : State) : s.rejectAlign.authOk = s.authOk := rfl
@[simp] theorem State.rejectAlign_inv0 (s : State) : s.rejectAlign.inv0 = s.inv0 := rfl
@[simp] theorem State.rejectAlign_segCnt (s : State) : s.rejectAlign.segCnt = s.segCnt := rfl
@[simp] theorem State.rejectAlign_rsmIdx (s : State) : s.rejectAlign.rsmIdx = s.rsmIdx := rfl
@[simp] theorem State.rejectAlign_keys (s : State) : s.rejectAlign.keys = s.keys := rfl
@[simp] theorem State.rejectAlign_chain (s : State) : s.rejectAlign.chain = s.chain := rfl
@[simp] theorem State.rejectAlign_tagacc (s : State) : s.rejectAlign.tagacc = s.tagacc := rfl
@[simp] theorem State.rejectAlign_hsub (s : State) : s.rejectAlign.hsub = s.hsub := rfl
@[simp] theorem State.rejectAlign_zblk (s : State) : s.rejectAlign.zblk = s.zblk := rfl
@[simp] theorem State.rejectAlign_segbuf (s : State) : s.rejectAlign.segbuf = s.segbuf := rfl
@[simp] theorem State.rejectAlign_pending (s : State) : s.rejectAlign.pending = s.pending := rfl
@[simp] theorem State.rejectAlign_rdata (s : State) : s.rejectAlign.rdata = s.rdata := rfl
@[simp] theorem State.rejectAlign_slverr (s : State) : s.rejectAlign.slverr = true := rfl
@[simp] theorem State.rejectAlign_keymodC (s : State) : s.rejectAlign.keymodC = s.keymodC := rfl
@[simp] theorem State.rejectAlign_free (s : State) : s.rejectAlign.free = s.free := rfl
@[simp] theorem State.rejectAlign_turn (s : State) : s.rejectAlign.turn = s.turn := rfl
@[simp] theorem State.rejectAlign_inputs (s : State) : s.rejectAlign.inputs = s.inputs := rfl

/-! ### `State.ackIrq` -/

@[simp] theorem State.ackIrq_ctrl (s : State) (v : Word) : (s.ackIrq v).ctrl = s.ctrl := rfl
@[simp] theorem State.ackIrq_errcode (s : State) (v : Word) :
    (s.ackIrq v).errcode = s.errcode := rfl
@[simp] theorem State.ackIrq_irqEn (s : State) (v : Word) : (s.ackIrq v).irqEn = s.irqEn := rfl
@[simp] theorem State.ackIrq_irqStat (s : State) (v : Word) :
    (s.ackIrq v).irqStat = s.irqStat &&& ~~~(v.extractLsb' 0 3) := rfl
@[simp] theorem State.ackIrq_key0 (s : State) (v : Word) : (s.ackIrq v).key0 = s.key0 := rfl
@[simp] theorem State.ackIrq_key1 (s : State) (v : Word) : (s.ackIrq v).key1 = s.key1 := rfl
@[simp] theorem State.ackIrq_key2 (s : State) (v : Word) : (s.ackIrq v).key2 = s.key2 := rfl
@[simp] theorem State.ackIrq_key3 (s : State) (v : Word) : (s.ackIrq v).key3 = s.key3 := rfl
@[simp] theorem State.ackIrq_iv (s : State) (v : Word) : (s.ackIrq v).iv = s.iv := rfl
@[simp] theorem State.ackIrq_msglen (s : State) (v : Word) : (s.ackIrq v).msglen = s.msglen := rfl
@[simp] theorem State.ackIrq_din (s : State) (v : Word) : (s.ackIrq v).din = s.din := rfl
@[simp] theorem State.ackIrq_dout (s : State) (v : Word) : (s.ackIrq v).dout = s.dout := rfl
@[simp] theorem State.ackIrq_blkidx (s : State) (v : Word) : (s.ackIrq v).blkidx = s.blkidx := rfl
@[simp] theorem State.ackIrq_siglen (s : State) (v : Word) : (s.ackIrq v).siglen = s.siglen := rfl
@[simp] theorem State.ackIrq_fpoly8 (s : State) (v : Word) : (s.ackIrq v).fpoly8 = s.fpoly8 := rfl
@[simp] theorem State.ackIrq_fgen8 (s : State) (v : Word) : (s.ackIrq v).fgen8 = s.fgen8 := rfl
@[simp] theorem State.ackIrq_fpoly16 (s : State) (v : Word) :
    (s.ackIrq v).fpoly16 = s.fpoly16 := rfl
@[simp] theorem State.ackIrq_fgen16 (s : State) (v : Word) : (s.ackIrq v).fgen16 = s.fgen16 := rfl
@[simp] theorem State.ackIrq_gfA (s : State) (v : Word) : (s.ackIrq v).gfA = s.gfA := rfl
@[simp] theorem State.ackIrq_gfB (s : State) (v : Word) : (s.ackIrq v).gfB = s.gfB := rfl
@[simp] theorem State.ackIrq_gfR (s : State) (v : Word) : (s.ackIrq v).gfR = s.gfR := rfl
@[simp] theorem State.ackIrq_ksidx (s : State) (v : Word) : (s.ackIrq v).ksidx = s.ksidx := rfl
@[simp] theorem State.ackIrq_sboxIdx (s : State) (v : Word) :
    (s.ackIrq v).sboxIdx = s.sboxIdx := rfl
@[simp] theorem State.ackIrq_keyValid (s : State) (v : Word) :
    (s.ackIrq v).keyValid = s.keyValid := rfl
@[simp] theorem State.ackIrq_session (s : State) (v : Word) :
    (s.ackIrq v).session = s.session := rfl
@[simp] theorem State.ackIrq_authValid (s : State) (v : Word) :
    (s.ackIrq v).authValid = s.authValid := rfl
@[simp] theorem State.ackIrq_authOk (s : State) (v : Word) : (s.ackIrq v).authOk = s.authOk := rfl
@[simp] theorem State.ackIrq_inv0 (s : State) (v : Word) : (s.ackIrq v).inv0 = s.inv0 := rfl
@[simp] theorem State.ackIrq_segCnt (s : State) (v : Word) : (s.ackIrq v).segCnt = s.segCnt := rfl
@[simp] theorem State.ackIrq_rsmIdx (s : State) (v : Word) : (s.ackIrq v).rsmIdx = s.rsmIdx := rfl
@[simp] theorem State.ackIrq_keys (s : State) (v : Word) : (s.ackIrq v).keys = s.keys := rfl
@[simp] theorem State.ackIrq_chain (s : State) (v : Word) : (s.ackIrq v).chain = s.chain := rfl
@[simp] theorem State.ackIrq_tagacc (s : State) (v : Word) : (s.ackIrq v).tagacc = s.tagacc := rfl
@[simp] theorem State.ackIrq_hsub (s : State) (v : Word) : (s.ackIrq v).hsub = s.hsub := rfl
@[simp] theorem State.ackIrq_zblk (s : State) (v : Word) : (s.ackIrq v).zblk = s.zblk := rfl
@[simp] theorem State.ackIrq_segbuf (s : State) (v : Word) : (s.ackIrq v).segbuf = s.segbuf := rfl
@[simp] theorem State.ackIrq_pending (s : State) (v : Word) :
    (s.ackIrq v).pending = s.pending := rfl
@[simp] theorem State.ackIrq_rdata (s : State) (v : Word) : (s.ackIrq v).rdata = s.rdata := rfl
@[simp] theorem State.ackIrq_slverr (s : State) (v : Word) : (s.ackIrq v).slverr = s.slverr := rfl
@[simp] theorem State.ackIrq_keymodC (s : State) (v : Word) :
    (s.ackIrq v).keymodC = s.keymodC := rfl
@[simp] theorem State.ackIrq_free (s : State) (v : Word) : (s.ackIrq v).free = s.free := rfl
@[simp] theorem State.ackIrq_turn (s : State) (v : Word) : (s.ackIrq v).turn = s.turn := rfl
@[simp] theorem State.ackIrq_inputs (s : State) (v : Word) : (s.ackIrq v).inputs = s.inputs := rfl

/-! ### `State.clearError` -/

@[simp] theorem State.clearError_ctrl (s : State) : s.clearError.ctrl = s.ctrl := rfl
@[simp] theorem State.clearError_errcode (s : State) : s.clearError.errcode = .none := rfl
@[simp] theorem State.clearError_irqEn (s : State) : s.clearError.irqEn = s.irqEn := rfl
@[simp] theorem State.clearError_irqStat (s : State) : s.clearError.irqStat = s.irqStat := rfl
@[simp] theorem State.clearError_key0 (s : State) : s.clearError.key0 = s.key0 := rfl
@[simp] theorem State.clearError_key1 (s : State) : s.clearError.key1 = s.key1 := rfl
@[simp] theorem State.clearError_key2 (s : State) : s.clearError.key2 = s.key2 := rfl
@[simp] theorem State.clearError_key3 (s : State) : s.clearError.key3 = s.key3 := rfl
@[simp] theorem State.clearError_iv (s : State) : s.clearError.iv = s.iv := rfl
@[simp] theorem State.clearError_msglen (s : State) : s.clearError.msglen = s.msglen := rfl
@[simp] theorem State.clearError_din (s : State) : s.clearError.din = s.din := rfl
@[simp] theorem State.clearError_dout (s : State) : s.clearError.dout = s.dout := rfl
@[simp] theorem State.clearError_blkidx (s : State) : s.clearError.blkidx = s.blkidx := rfl
@[simp] theorem State.clearError_siglen (s : State) : s.clearError.siglen = s.siglen := rfl
@[simp] theorem State.clearError_fpoly8 (s : State) : s.clearError.fpoly8 = s.fpoly8 := rfl
@[simp] theorem State.clearError_fgen8 (s : State) : s.clearError.fgen8 = s.fgen8 := rfl
@[simp] theorem State.clearError_fpoly16 (s : State) : s.clearError.fpoly16 = s.fpoly16 := rfl
@[simp] theorem State.clearError_fgen16 (s : State) : s.clearError.fgen16 = s.fgen16 := rfl
@[simp] theorem State.clearError_gfA (s : State) : s.clearError.gfA = s.gfA := rfl
@[simp] theorem State.clearError_gfB (s : State) : s.clearError.gfB = s.gfB := rfl
@[simp] theorem State.clearError_gfR (s : State) : s.clearError.gfR = s.gfR := rfl
@[simp] theorem State.clearError_ksidx (s : State) : s.clearError.ksidx = s.ksidx := rfl
@[simp] theorem State.clearError_sboxIdx (s : State) : s.clearError.sboxIdx = s.sboxIdx := rfl
@[simp] theorem State.clearError_keyValid (s : State) : s.clearError.keyValid = s.keyValid := rfl
@[simp] theorem State.clearError_session (s : State) : s.clearError.session = s.session := rfl
@[simp] theorem State.clearError_authValid (s : State) : s.clearError.authValid = s.authValid := rfl
@[simp] theorem State.clearError_authOk (s : State) : s.clearError.authOk = s.authOk := rfl
@[simp] theorem State.clearError_inv0 (s : State) : s.clearError.inv0 = s.inv0 := rfl
@[simp] theorem State.clearError_segCnt (s : State) : s.clearError.segCnt = s.segCnt := rfl
@[simp] theorem State.clearError_rsmIdx (s : State) : s.clearError.rsmIdx = s.rsmIdx := rfl
@[simp] theorem State.clearError_keys (s : State) : s.clearError.keys = s.keys := rfl
@[simp] theorem State.clearError_chain (s : State) : s.clearError.chain = s.chain := rfl
@[simp] theorem State.clearError_tagacc (s : State) : s.clearError.tagacc = s.tagacc := rfl
@[simp] theorem State.clearError_hsub (s : State) : s.clearError.hsub = s.hsub := rfl
@[simp] theorem State.clearError_zblk (s : State) : s.clearError.zblk = s.zblk := rfl
@[simp] theorem State.clearError_segbuf (s : State) : s.clearError.segbuf = s.segbuf := rfl
@[simp] theorem State.clearError_pending (s : State) : s.clearError.pending = s.pending := rfl
@[simp] theorem State.clearError_rdata (s : State) : s.clearError.rdata = s.rdata := rfl
@[simp] theorem State.clearError_slverr (s : State) : s.clearError.slverr = s.slverr := rfl
@[simp] theorem State.clearError_keymodC (s : State) : s.clearError.keymodC = s.keymodC := rfl
@[simp] theorem State.clearError_free (s : State) : s.clearError.free = s.free := rfl
@[simp] theorem State.clearError_turn (s : State) : s.clearError.turn = s.turn := rfl
@[simp] theorem State.clearError_inputs (s : State) : s.clearError.inputs = s.inputs := rfl

/-! ### `State.drawn` -/

@[simp] theorem State.drawn_ctrl (s : State) : s.drawn.ctrl = s.ctrl := rfl
@[simp] theorem State.drawn_errcode (s : State) : s.drawn.errcode = s.errcode := rfl
@[simp] theorem State.drawn_irqEn (s : State) : s.drawn.irqEn = s.irqEn := rfl
@[simp] theorem State.drawn_irqStat (s : State) : s.drawn.irqStat = s.irqStat := rfl
@[simp] theorem State.drawn_key0 (s : State) : s.drawn.key0 = s.key0 := rfl
@[simp] theorem State.drawn_key1 (s : State) : s.drawn.key1 = s.key1 := rfl
@[simp] theorem State.drawn_key2 (s : State) : s.drawn.key2 = s.key2 := rfl
@[simp] theorem State.drawn_key3 (s : State) : s.drawn.key3 = s.key3 := rfl
@[simp] theorem State.drawn_iv (s : State) : s.drawn.iv = s.iv := rfl
@[simp] theorem State.drawn_msglen (s : State) : s.drawn.msglen = s.msglen := rfl
@[simp] theorem State.drawn_din (s : State) : s.drawn.din = s.din := rfl
@[simp] theorem State.drawn_dout (s : State) : s.drawn.dout = s.dout := rfl
@[simp] theorem State.drawn_blkidx (s : State) : s.drawn.blkidx = s.blkidx := rfl
@[simp] theorem State.drawn_siglen (s : State) : s.drawn.siglen = s.siglen := rfl
@[simp] theorem State.drawn_fpoly8 (s : State) : s.drawn.fpoly8 = s.fpoly8 := rfl
@[simp] theorem State.drawn_fgen8 (s : State) : s.drawn.fgen8 = s.fgen8 := rfl
@[simp] theorem State.drawn_fpoly16 (s : State) : s.drawn.fpoly16 = s.fpoly16 := rfl
@[simp] theorem State.drawn_fgen16 (s : State) : s.drawn.fgen16 = s.fgen16 := rfl
@[simp] theorem State.drawn_gfA (s : State) : s.drawn.gfA = s.gfA := rfl
@[simp] theorem State.drawn_gfB (s : State) : s.drawn.gfB = s.gfB := rfl
@[simp] theorem State.drawn_gfR (s : State) : s.drawn.gfR = s.gfR := rfl
@[simp] theorem State.drawn_ksidx (s : State) : s.drawn.ksidx = s.ksidx := rfl
@[simp] theorem State.drawn_sboxIdx (s : State) : s.drawn.sboxIdx = s.sboxIdx := rfl
@[simp] theorem State.drawn_keyValid (s : State) : s.drawn.keyValid = s.keyValid := rfl
@[simp] theorem State.drawn_session (s : State) : s.drawn.session = s.session := rfl
@[simp] theorem State.drawn_authValid (s : State) : s.drawn.authValid = s.authValid := rfl
@[simp] theorem State.drawn_authOk (s : State) : s.drawn.authOk = s.authOk := rfl
@[simp] theorem State.drawn_inv0 (s : State) : s.drawn.inv0 = s.inv0 := rfl
@[simp] theorem State.drawn_segCnt (s : State) : s.drawn.segCnt = s.segCnt := rfl
@[simp] theorem State.drawn_rsmIdx (s : State) : s.drawn.rsmIdx = s.rsmIdx := rfl
@[simp] theorem State.drawn_keys (s : State) : s.drawn.keys = s.keys := rfl
@[simp] theorem State.drawn_chain (s : State) : s.drawn.chain = s.chain := rfl
@[simp] theorem State.drawn_tagacc (s : State) : s.drawn.tagacc = s.tagacc := rfl
@[simp] theorem State.drawn_hsub (s : State) : s.drawn.hsub = s.hsub := rfl
@[simp] theorem State.drawn_zblk (s : State) : s.drawn.zblk = s.zblk := rfl
@[simp] theorem State.drawn_segbuf (s : State) : s.drawn.segbuf = s.segbuf := rfl
@[simp] theorem State.drawn_pending (s : State) : s.drawn.pending = s.pending := rfl
@[simp] theorem State.drawn_rdata (s : State) : s.drawn.rdata = s.rdata := rfl
@[simp] theorem State.drawn_slverr (s : State) : s.drawn.slverr = s.slverr := rfl
@[simp] theorem State.drawn_keymodC (s : State) : s.drawn.keymodC = s.keymodC := rfl
@[simp] theorem State.drawn_free (s : State) : s.drawn.free = s.free + 1 := rfl
@[simp] theorem State.drawn_turn (s : State) : s.drawn.turn = s.turn := rfl
@[simp] theorem State.drawn_inputs (s : State) : s.drawn.inputs = s.inputs := rfl

/-! ### `State.accept` -/

@[simp] theorem State.accept_ctrl (s : State) (i : Instr) : (s.accept i).ctrl = s.ctrl := rfl
@[simp] theorem State.accept_errcode (s : State) (i : Instr) :
    (s.accept i).errcode = s.errcode := rfl
@[simp] theorem State.accept_irqEn (s : State) (i : Instr) : (s.accept i).irqEn = s.irqEn := rfl
@[simp] theorem State.accept_irqStat (s : State) (i : Instr) :
    (s.accept i).irqStat = s.irqStat := rfl
@[simp] theorem State.accept_key0 (s : State) (i : Instr) : (s.accept i).key0 = s.key0 := rfl
@[simp] theorem State.accept_key1 (s : State) (i : Instr) : (s.accept i).key1 = s.key1 := rfl
@[simp] theorem State.accept_key2 (s : State) (i : Instr) : (s.accept i).key2 = s.key2 := rfl
@[simp] theorem State.accept_key3 (s : State) (i : Instr) : (s.accept i).key3 = s.key3 := rfl
@[simp] theorem State.accept_iv (s : State) (i : Instr) : (s.accept i).iv = s.iv := rfl
@[simp] theorem State.accept_msglen (s : State) (i : Instr) : (s.accept i).msglen = s.msglen := rfl
@[simp] theorem State.accept_din (s : State) (i : Instr) : (s.accept i).din = s.din := rfl
@[simp] theorem State.accept_dout (s : State) (i : Instr) : (s.accept i).dout = s.dout := rfl
@[simp] theorem State.accept_blkidx (s : State) (i : Instr) : (s.accept i).blkidx = s.blkidx := rfl
@[simp] theorem State.accept_siglen (s : State) (i : Instr) : (s.accept i).siglen = s.siglen := rfl
@[simp] theorem State.accept_fpoly8 (s : State) (i : Instr) : (s.accept i).fpoly8 = s.fpoly8 := rfl
@[simp] theorem State.accept_fgen8 (s : State) (i : Instr) : (s.accept i).fgen8 = s.fgen8 := rfl
@[simp] theorem State.accept_fpoly16 (s : State) (i : Instr) :
    (s.accept i).fpoly16 = s.fpoly16 := rfl
@[simp] theorem State.accept_fgen16 (s : State) (i : Instr) : (s.accept i).fgen16 = s.fgen16 := rfl
@[simp] theorem State.accept_gfA (s : State) (i : Instr) : (s.accept i).gfA = s.gfA := rfl
@[simp] theorem State.accept_gfB (s : State) (i : Instr) : (s.accept i).gfB = s.gfB := rfl
@[simp] theorem State.accept_gfR (s : State) (i : Instr) : (s.accept i).gfR = s.gfR := rfl
@[simp] theorem State.accept_ksidx (s : State) (i : Instr) : (s.accept i).ksidx = s.ksidx := rfl
@[simp] theorem State.accept_sboxIdx (s : State) (i : Instr) :
    (s.accept i).sboxIdx = s.sboxIdx := rfl
@[simp] theorem State.accept_keyValid (s : State) (i : Instr) :
    (s.accept i).keyValid = s.keyValid := rfl
@[simp] theorem State.accept_session (s : State) (i : Instr) :
    (s.accept i).session = s.session := rfl
@[simp] theorem State.accept_authValid (s : State) (i : Instr) :
    (s.accept i).authValid = s.authValid := rfl
@[simp] theorem State.accept_authOk (s : State) (i : Instr) : (s.accept i).authOk = s.authOk := rfl
@[simp] theorem State.accept_inv0 (s : State) (i : Instr) : (s.accept i).inv0 = s.inv0 := rfl
@[simp] theorem State.accept_segCnt (s : State) (i : Instr) : (s.accept i).segCnt = s.segCnt := rfl
@[simp] theorem State.accept_rsmIdx (s : State) (i : Instr) : (s.accept i).rsmIdx = s.rsmIdx := rfl
@[simp] theorem State.accept_keys (s : State) (i : Instr) : (s.accept i).keys = s.keys := rfl
@[simp] theorem State.accept_chain (s : State) (i : Instr) : (s.accept i).chain = s.chain := rfl
@[simp] theorem State.accept_tagacc (s : State) (i : Instr) : (s.accept i).tagacc = s.tagacc := rfl
@[simp] theorem State.accept_hsub (s : State) (i : Instr) : (s.accept i).hsub = s.hsub := rfl
@[simp] theorem State.accept_zblk (s : State) (i : Instr) : (s.accept i).zblk = s.zblk := rfl
@[simp] theorem State.accept_segbuf (s : State) (i : Instr) : (s.accept i).segbuf = s.segbuf := rfl
@[simp] theorem State.accept_pending (s : State) (i : Instr) : (s.accept i).pending = some i := rfl
@[simp] theorem State.accept_rdata (s : State) (i : Instr) : (s.accept i).rdata = s.rdata := rfl
@[simp] theorem State.accept_slverr (s : State) (i : Instr) : (s.accept i).slverr = s.slverr := rfl
@[simp] theorem State.accept_keymodC (s : State) (i : Instr) :
    (s.accept i).keymodC = s.keymodC := rfl
@[simp] theorem State.accept_free (s : State) (i : Instr) : (s.accept i).free = s.free := rfl
@[simp] theorem State.accept_turn (s : State) (i : Instr) : (s.accept i).turn = s.turn := rfl
@[simp] theorem State.accept_inputs (s : State) (i : Instr) : (s.accept i).inputs = s.inputs := rfl

/-! ### `State.complete` -/

@[simp] theorem State.complete_ctrl (s : State) : s.complete.ctrl = s.ctrl := rfl
@[simp] theorem State.complete_errcode (s : State) : s.complete.errcode = s.errcode := rfl
@[simp] theorem State.complete_irqEn (s : State) : s.complete.irqEn = s.irqEn := rfl
@[simp] theorem State.complete_irqStat (s : State) :
    s.complete.irqStat = s.irqStat ||| irqDone := rfl
@[simp] theorem State.complete_key0 (s : State) : s.complete.key0 = s.key0 := rfl
@[simp] theorem State.complete_key1 (s : State) : s.complete.key1 = s.key1 := rfl
@[simp] theorem State.complete_key2 (s : State) : s.complete.key2 = s.key2 := rfl
@[simp] theorem State.complete_key3 (s : State) : s.complete.key3 = s.key3 := rfl
@[simp] theorem State.complete_iv (s : State) : s.complete.iv = s.iv := rfl
@[simp] theorem State.complete_msglen (s : State) : s.complete.msglen = s.msglen := rfl
@[simp] theorem State.complete_din (s : State) : s.complete.din = s.din := rfl
@[simp] theorem State.complete_dout (s : State) : s.complete.dout = s.dout := rfl
@[simp] theorem State.complete_blkidx (s : State) : s.complete.blkidx = s.blkidx := rfl
@[simp] theorem State.complete_siglen (s : State) : s.complete.siglen = s.siglen := rfl
@[simp] theorem State.complete_fpoly8 (s : State) : s.complete.fpoly8 = s.fpoly8 := rfl
@[simp] theorem State.complete_fgen8 (s : State) : s.complete.fgen8 = s.fgen8 := rfl
@[simp] theorem State.complete_fpoly16 (s : State) : s.complete.fpoly16 = s.fpoly16 := rfl
@[simp] theorem State.complete_fgen16 (s : State) : s.complete.fgen16 = s.fgen16 := rfl
@[simp] theorem State.complete_gfA (s : State) : s.complete.gfA = s.gfA := rfl
@[simp] theorem State.complete_gfB (s : State) : s.complete.gfB = s.gfB := rfl
@[simp] theorem State.complete_gfR (s : State) : s.complete.gfR = s.gfR := rfl
@[simp] theorem State.complete_ksidx (s : State) : s.complete.ksidx = s.ksidx := rfl
@[simp] theorem State.complete_sboxIdx (s : State) : s.complete.sboxIdx = s.sboxIdx := rfl
@[simp] theorem State.complete_keyValid (s : State) : s.complete.keyValid = s.keyValid := rfl
@[simp] theorem State.complete_session (s : State) : s.complete.session = s.session := rfl
@[simp] theorem State.complete_authValid (s : State) : s.complete.authValid = s.authValid := rfl
@[simp] theorem State.complete_authOk (s : State) : s.complete.authOk = s.authOk := rfl
@[simp] theorem State.complete_inv0 (s : State) : s.complete.inv0 = s.inv0 := rfl
@[simp] theorem State.complete_segCnt (s : State) : s.complete.segCnt = s.segCnt := rfl
@[simp] theorem State.complete_rsmIdx (s : State) : s.complete.rsmIdx = s.rsmIdx := rfl
@[simp] theorem State.complete_keys (s : State) : s.complete.keys = s.keys := rfl
@[simp] theorem State.complete_chain (s : State) : s.complete.chain = s.chain := rfl
@[simp] theorem State.complete_tagacc (s : State) : s.complete.tagacc = s.tagacc := rfl
@[simp] theorem State.complete_hsub (s : State) : s.complete.hsub = s.hsub := rfl
@[simp] theorem State.complete_zblk (s : State) : s.complete.zblk = s.zblk := rfl
@[simp] theorem State.complete_segbuf (s : State) : s.complete.segbuf = s.segbuf := rfl
@[simp] theorem State.complete_pending (s : State) : s.complete.pending = none := rfl
@[simp] theorem State.complete_rdata (s : State) : s.complete.rdata = s.rdata := rfl
@[simp] theorem State.complete_slverr (s : State) : s.complete.slverr = s.slverr := rfl
@[simp] theorem State.complete_keymodC (s : State) : s.complete.keymodC = s.keymodC := rfl
@[simp] theorem State.complete_free (s : State) : s.complete.free = s.free := rfl
@[simp] theorem State.complete_turn (s : State) : s.complete.turn = s.turn := rfl
@[simp] theorem State.complete_inputs (s : State) : s.complete.inputs = s.inputs := rfl

/-! ### `State.setDout` -/

@[simp] theorem State.setDout_ctrl (s : State) (v : Block) : (s.setDout v).ctrl = s.ctrl := rfl
@[simp] theorem State.setDout_errcode (s : State) (v : Block) :
    (s.setDout v).errcode = s.errcode := rfl
@[simp] theorem State.setDout_irqEn (s : State) (v : Block) : (s.setDout v).irqEn = s.irqEn := rfl
@[simp] theorem State.setDout_irqStat (s : State) (v : Block) :
    (s.setDout v).irqStat = s.irqStat := rfl
@[simp] theorem State.setDout_key0 (s : State) (v : Block) : (s.setDout v).key0 = s.key0 := rfl
@[simp] theorem State.setDout_key1 (s : State) (v : Block) : (s.setDout v).key1 = s.key1 := rfl
@[simp] theorem State.setDout_key2 (s : State) (v : Block) : (s.setDout v).key2 = s.key2 := rfl
@[simp] theorem State.setDout_key3 (s : State) (v : Block) : (s.setDout v).key3 = s.key3 := rfl
@[simp] theorem State.setDout_iv (s : State) (v : Block) : (s.setDout v).iv = s.iv := rfl
@[simp] theorem State.setDout_msglen (s : State) (v : Block) :
    (s.setDout v).msglen = s.msglen := rfl
@[simp] theorem State.setDout_din (s : State) (v : Block) : (s.setDout v).din = s.din := rfl
@[simp] theorem State.setDout_dout (s : State) (v : Block) : (s.setDout v).dout = v := rfl
@[simp] theorem State.setDout_blkidx (s : State) (v : Block) :
    (s.setDout v).blkidx = s.blkidx := rfl
@[simp] theorem State.setDout_siglen (s : State) (v : Block) :
    (s.setDout v).siglen = s.siglen := rfl
@[simp] theorem State.setDout_fpoly8 (s : State) (v : Block) :
    (s.setDout v).fpoly8 = s.fpoly8 := rfl
@[simp] theorem State.setDout_fgen8 (s : State) (v : Block) : (s.setDout v).fgen8 = s.fgen8 := rfl
@[simp] theorem State.setDout_fpoly16 (s : State) (v : Block) :
    (s.setDout v).fpoly16 = s.fpoly16 := rfl
@[simp] theorem State.setDout_fgen16 (s : State) (v : Block) :
    (s.setDout v).fgen16 = s.fgen16 := rfl
@[simp] theorem State.setDout_gfA (s : State) (v : Block) : (s.setDout v).gfA = s.gfA := rfl
@[simp] theorem State.setDout_gfB (s : State) (v : Block) : (s.setDout v).gfB = s.gfB := rfl
@[simp] theorem State.setDout_gfR (s : State) (v : Block) : (s.setDout v).gfR = s.gfR := rfl
@[simp] theorem State.setDout_ksidx (s : State) (v : Block) : (s.setDout v).ksidx = s.ksidx := rfl
@[simp] theorem State.setDout_sboxIdx (s : State) (v : Block) :
    (s.setDout v).sboxIdx = s.sboxIdx := rfl
@[simp] theorem State.setDout_keyValid (s : State) (v : Block) :
    (s.setDout v).keyValid = s.keyValid := rfl
@[simp] theorem State.setDout_session (s : State) (v : Block) :
    (s.setDout v).session = s.session := rfl
@[simp] theorem State.setDout_authValid (s : State) (v : Block) :
    (s.setDout v).authValid = s.authValid := rfl
@[simp] theorem State.setDout_authOk (s : State) (v : Block) :
    (s.setDout v).authOk = s.authOk := rfl
@[simp] theorem State.setDout_inv0 (s : State) (v : Block) : (s.setDout v).inv0 = s.inv0 := rfl
@[simp] theorem State.setDout_segCnt (s : State) (v : Block) :
    (s.setDout v).segCnt = s.segCnt := rfl
@[simp] theorem State.setDout_rsmIdx (s : State) (v : Block) : (s.setDout v).rsmIdx = 0 := rfl
@[simp] theorem State.setDout_keys (s : State) (v : Block) : (s.setDout v).keys = s.keys := rfl
@[simp] theorem State.setDout_chain (s : State) (v : Block) : (s.setDout v).chain = s.chain := rfl
@[simp] theorem State.setDout_tagacc (s : State) (v : Block) :
    (s.setDout v).tagacc = s.tagacc := rfl
@[simp] theorem State.setDout_hsub (s : State) (v : Block) : (s.setDout v).hsub = s.hsub := rfl
@[simp] theorem State.setDout_zblk (s : State) (v : Block) : (s.setDout v).zblk = s.zblk := rfl
@[simp] theorem State.setDout_segbuf (s : State) (v : Block) :
    (s.setDout v).segbuf = s.segbuf := rfl
@[simp] theorem State.setDout_pending (s : State) (v : Block) :
    (s.setDout v).pending = s.pending := rfl
@[simp] theorem State.setDout_rdata (s : State) (v : Block) : (s.setDout v).rdata = s.rdata := rfl
@[simp] theorem State.setDout_slverr (s : State) (v : Block) :
    (s.setDout v).slverr = s.slverr := rfl
@[simp] theorem State.setDout_keymodC (s : State) (v : Block) :
    (s.setDout v).keymodC = s.keymodC := rfl
@[simp] theorem State.setDout_free (s : State) (v : Block) : (s.setDout v).free = s.free := rfl
@[simp] theorem State.setDout_turn (s : State) (v : Block) : (s.setDout v).turn = s.turn := rfl
@[simp] theorem State.setDout_inputs (s : State) (v : Block) :
    (s.setDout v).inputs = s.inputs := rfl

/-! ### `State.respond` -/

@[simp] theorem State.respond_ctrl (s : State) (v : Word) : (s.respond v).ctrl = s.ctrl := rfl
@[simp] theorem State.respond_errcode (s : State) (v : Word) :
    (s.respond v).errcode = s.errcode := rfl
@[simp] theorem State.respond_irqEn (s : State) (v : Word) : (s.respond v).irqEn = s.irqEn := rfl
@[simp] theorem State.respond_irqStat (s : State) (v : Word) :
    (s.respond v).irqStat = s.irqStat := rfl
@[simp] theorem State.respond_key0 (s : State) (v : Word) : (s.respond v).key0 = s.key0 := rfl
@[simp] theorem State.respond_key1 (s : State) (v : Word) : (s.respond v).key1 = s.key1 := rfl
@[simp] theorem State.respond_key2 (s : State) (v : Word) : (s.respond v).key2 = s.key2 := rfl
@[simp] theorem State.respond_key3 (s : State) (v : Word) : (s.respond v).key3 = s.key3 := rfl
@[simp] theorem State.respond_iv (s : State) (v : Word) : (s.respond v).iv = s.iv := rfl
@[simp] theorem State.respond_msglen (s : State) (v : Word) : (s.respond v).msglen = s.msglen := rfl
@[simp] theorem State.respond_din (s : State) (v : Word) : (s.respond v).din = s.din := rfl
@[simp] theorem State.respond_dout (s : State) (v : Word) : (s.respond v).dout = s.dout := rfl
@[simp] theorem State.respond_blkidx (s : State) (v : Word) : (s.respond v).blkidx = s.blkidx := rfl
@[simp] theorem State.respond_siglen (s : State) (v : Word) : (s.respond v).siglen = s.siglen := rfl
@[simp] theorem State.respond_fpoly8 (s : State) (v : Word) : (s.respond v).fpoly8 = s.fpoly8 := rfl
@[simp] theorem State.respond_fgen8 (s : State) (v : Word) : (s.respond v).fgen8 = s.fgen8 := rfl
@[simp] theorem State.respond_fpoly16 (s : State) (v : Word) :
    (s.respond v).fpoly16 = s.fpoly16 := rfl
@[simp] theorem State.respond_fgen16 (s : State) (v : Word) : (s.respond v).fgen16 = s.fgen16 := rfl
@[simp] theorem State.respond_gfA (s : State) (v : Word) : (s.respond v).gfA = s.gfA := rfl
@[simp] theorem State.respond_gfB (s : State) (v : Word) : (s.respond v).gfB = s.gfB := rfl
@[simp] theorem State.respond_gfR (s : State) (v : Word) : (s.respond v).gfR = s.gfR := rfl
@[simp] theorem State.respond_ksidx (s : State) (v : Word) : (s.respond v).ksidx = s.ksidx := rfl
@[simp] theorem State.respond_sboxIdx (s : State) (v : Word) :
    (s.respond v).sboxIdx = s.sboxIdx := rfl
@[simp] theorem State.respond_keyValid (s : State) (v : Word) :
    (s.respond v).keyValid = s.keyValid := rfl
@[simp] theorem State.respond_session (s : State) (v : Word) :
    (s.respond v).session = s.session := rfl
@[simp] theorem State.respond_authValid (s : State) (v : Word) :
    (s.respond v).authValid = s.authValid := rfl
@[simp] theorem State.respond_authOk (s : State) (v : Word) : (s.respond v).authOk = s.authOk := rfl
@[simp] theorem State.respond_inv0 (s : State) (v : Word) : (s.respond v).inv0 = s.inv0 := rfl
@[simp] theorem State.respond_segCnt (s : State) (v : Word) : (s.respond v).segCnt = s.segCnt := rfl
@[simp] theorem State.respond_rsmIdx (s : State) (v : Word) : (s.respond v).rsmIdx = s.rsmIdx := rfl
@[simp] theorem State.respond_keys (s : State) (v : Word) : (s.respond v).keys = s.keys := rfl
@[simp] theorem State.respond_chain (s : State) (v : Word) : (s.respond v).chain = s.chain := rfl
@[simp] theorem State.respond_tagacc (s : State) (v : Word) : (s.respond v).tagacc = s.tagacc := rfl
@[simp] theorem State.respond_hsub (s : State) (v : Word) : (s.respond v).hsub = s.hsub := rfl
@[simp] theorem State.respond_zblk (s : State) (v : Word) : (s.respond v).zblk = s.zblk := rfl
@[simp] theorem State.respond_segbuf (s : State) (v : Word) : (s.respond v).segbuf = s.segbuf := rfl
@[simp] theorem State.respond_pending (s : State) (v : Word) :
    (s.respond v).pending = s.pending := rfl
@[simp] theorem State.respond_rdata (s : State) (v : Word) : (s.respond v).rdata = v := rfl
@[simp] theorem State.respond_slverr (s : State) (v : Word) : (s.respond v).slverr = s.slverr := rfl
@[simp] theorem State.respond_keymodC (s : State) (v : Word) :
    (s.respond v).keymodC = s.keymodC := rfl
@[simp] theorem State.respond_free (s : State) (v : Word) : (s.respond v).free = s.free := rfl
@[simp] theorem State.respond_turn (s : State) (v : Word) : (s.respond v).turn = s.turn := rfl
@[simp] theorem State.respond_inputs (s : State) (v : Word) : (s.respond v).inputs = s.inputs := rfl

/-! ### `State.resetCore` -/

@[simp] theorem State.resetCore_ctrl (s : State) : s.resetCore.ctrl = 0 := rfl
@[simp] theorem State.resetCore_errcode (s : State) : s.resetCore.errcode = .none := rfl
@[simp] theorem State.resetCore_irqEn (s : State) : s.resetCore.irqEn = 0 := rfl
@[simp] theorem State.resetCore_irqStat (s : State) : s.resetCore.irqStat = 0 := rfl
@[simp] theorem State.resetCore_key0 (s : State) : s.resetCore.key0 = 0 := rfl
@[simp] theorem State.resetCore_key1 (s : State) : s.resetCore.key1 = 0 := rfl
@[simp] theorem State.resetCore_key2 (s : State) : s.resetCore.key2 = 0 := rfl
@[simp] theorem State.resetCore_key3 (s : State) : s.resetCore.key3 = 0 := rfl
@[simp] theorem State.resetCore_iv (s : State) : s.resetCore.iv = 0 := rfl
@[simp] theorem State.resetCore_msglen (s : State) : s.resetCore.msglen = 0 := rfl
@[simp] theorem State.resetCore_din (s : State) : s.resetCore.din = 0 := rfl
@[simp] theorem State.resetCore_dout (s : State) : s.resetCore.dout = 0 := rfl
@[simp] theorem State.resetCore_blkidx (s : State) : s.resetCore.blkidx = 0 := rfl
@[simp] theorem State.resetCore_siglen (s : State) : s.resetCore.siglen = 0 := rfl
@[simp] theorem State.resetCore_fpoly8 (s : State) : s.resetCore.fpoly8 = 0 := rfl
@[simp] theorem State.resetCore_fgen8 (s : State) : s.resetCore.fgen8 = 0 := rfl
@[simp] theorem State.resetCore_fpoly16 (s : State) : s.resetCore.fpoly16 = 0 := rfl
@[simp] theorem State.resetCore_fgen16 (s : State) : s.resetCore.fgen16 = 0 := rfl
@[simp] theorem State.resetCore_gfA (s : State) : s.resetCore.gfA = 0 := rfl
@[simp] theorem State.resetCore_gfB (s : State) : s.resetCore.gfB = 0 := rfl
@[simp] theorem State.resetCore_gfR (s : State) : s.resetCore.gfR = 0 := rfl
@[simp] theorem State.resetCore_ksidx (s : State) : s.resetCore.ksidx = 0 := rfl
@[simp] theorem State.resetCore_sboxIdx (s : State) : s.resetCore.sboxIdx = 0 := rfl
@[simp] theorem State.resetCore_keyValid (s : State) : s.resetCore.keyValid = false := rfl
@[simp] theorem State.resetCore_session (s : State) : s.resetCore.session = false := rfl
@[simp] theorem State.resetCore_authValid (s : State) : s.resetCore.authValid = false := rfl
@[simp] theorem State.resetCore_authOk (s : State) : s.resetCore.authOk = false := rfl
@[simp] theorem State.resetCore_inv0 (s : State) : s.resetCore.inv0 = false := rfl
@[simp] theorem State.resetCore_segCnt (s : State) : s.resetCore.segCnt = 0 := rfl
@[simp] theorem State.resetCore_rsmIdx (s : State) : s.resetCore.rsmIdx = 0 := rfl
@[simp] theorem State.resetCore_keys (s : State) : s.resetCore.keys = KeySchedule.zero := rfl
@[simp] theorem State.resetCore_chain (s : State) : s.resetCore.chain = 0 := rfl
@[simp] theorem State.resetCore_tagacc (s : State) : s.resetCore.tagacc = 0 := rfl
@[simp] theorem State.resetCore_hsub (s : State) : s.resetCore.hsub = 0 := rfl
@[simp] theorem State.resetCore_zblk (s : State) : s.resetCore.zblk = 0 := rfl
@[simp] theorem State.resetCore_segbuf (s : State) : s.resetCore.segbuf = 0 := rfl
@[simp] theorem State.resetCore_pending (s : State) : s.resetCore.pending = .none := rfl
@[simp] theorem State.resetCore_rdata (s : State) : s.resetCore.rdata = s.rdata := rfl
@[simp] theorem State.resetCore_slverr (s : State) : s.resetCore.slverr = s.slverr := rfl
@[simp] theorem State.resetCore_keymodC (s : State) : s.resetCore.keymodC = s.keymodC := rfl
@[simp] theorem State.resetCore_free (s : State) : s.resetCore.free = s.free := rfl
@[simp] theorem State.resetCore_turn (s : State) : s.resetCore.turn = s.turn := rfl
@[simp] theorem State.resetCore_inputs (s : State) : s.resetCore.inputs = s.inputs := rfl

end Sys2Proof.Machine
end

