-- ==== Sys2Proof/Laws/Ops.lean ====
section
/-! SUPPORT. For each shared operation, once, everything it can do. -/

namespace Sys2Proof.Machine

open Sys2Proof.Safety

/-! ### Checks -/

/-- No check of a list fails exactly when each one passes. -/
theorem firstFailure_eq_none (l : List (Bool × ErrCode)) :
    firstFailure l = none ↔ ∀ p ∈ l, p.1 = false := by
  induction l with
  | nil => simp [firstFailure]
  | cons p l ih =>
    obtain ⟨b, c⟩ := p
    cases b <;> simp [firstFailure, ih]

/-- A code a list of checks answers is one of the list's. -/
theorem firstFailure_mem {l : List (Bool × ErrCode)} {c : ErrCode} (h : firstFailure l = some c) :
    (true, c) ∈ l := by
  induction l with
  | nil => simp [firstFailure] at h
  | cons p l ih =>
    obtain ⟨b, d⟩ := p
    cases b
    · exact List.mem_cons_of_mem _ (ih (by simpa [firstFailure] using h))
    · simp [firstFailure] at h; simp [h]

theorem Mode.ofBits_eq_gcm (m : BitVec 3) : Mode.ofBits m = .gcm ↔ m = 6 := by
  revert m; decide

theorem Mode.ofBits_eq_reserved (m : BitVec 3) : Mode.ofBits m = .reserved ↔ m = 7 := by
  revert m; decide

theorem State.mode_eq_gcm (s : State) : s.mode = .gcm ↔ s.ctrl.extractLsb' 0 3 = 6 :=
  Mode.ofBits_eq_gcm _

theorem State.mode_eq_reserved (s : State) : s.mode = .reserved ↔ s.ctrl.extractLsb' 0 3 = 7 :=
  Mode.ofBits_eq_reserved _

/-- The tag polynomial START checks on top of FPOLY16 is FPOLY8, when TAGFSEL is 1. -/
theorem State.tagField_valid (s : State) (h : s.fpoly16.getLsbD 16 = true) :
    s.polyValid s.tagField = false ↔ s.ctrl.getLsbD 4 = true ∧ s.fpoly8.getLsbD 8 = false := by
  unfold State.tagField
  cases hc : s.ctrl.getLsbD 4 <;> simp [State.polyValid, h]

/-- Checks 3 to 6 of 60_exceptions.md R165 pass exactly in the states `Admissible` describes. -/
theorem issueCheck_eq_none (i : Instr) (s : State) : issueCheck i s = none ↔ Admissible i s := by
  cases i with
  | start =>
    simp only [issueCheck, startChecks, firstFailure_eq_none, List.mem_cons, List.not_mem_nil,
      or_false, forall_eq_or_imp, forall_eq, Admissible]
    simp only [Bool.not_eq_eq_eq_not, Bool.not_false, Bool.or_eq_false_iff, beq_eq_false_iff_ne,
      ne_eq, State.mode_eq_reserved, and_assoc]
    refine and_congr_right fun _ => and_congr_right fun _ => and_congr_right fun hv => ?_
    refine and_congr_left fun _ => ?_
    have ht := State.tagField_valid s hv
    rw [← ht, ← State.mode_eq_gcm]
    cases hm : s.polyValid s.tagField <;> cases hg : s.mode <;> simp
  | gfMul f => cases f <;> simp [issueCheck, firstFailure, Admissible, State.polyValid]
  | gfInv f => cases f <;> simp [issueCheck, firstFailure, Admissible, State.polyValid]
  | gfOrder f => cases f <;> simp [issueCheck, firstFailure, Admissible, State.polyValid]
  | _ => simp [issueCheck, firstFailure_eq_none, blockChecks, Admissible, State.polyValid]

/-- The codes of checks 3 to 6. -/
theorem issueCheck_codes {i : Instr} {s : State} {c : ErrCode} (h : issueCheck i s = some c) :
    c ∈ [ErrCode.seq, .nokey, .badfield, .badmode] := by
  cases i <;> simp only [issueCheck, blockChecks, startChecks, reduceCtorEq] at h <;>
    (have := firstFailure_mem h; aesop)

theorem State.failingCheck_eq_none (s : State) (i : Instr) :
    s.failingCheck i = none ↔ s.pending = none ∧ Admissible i s := by
  unfold State.failingCheck State.busy
  cases hp : s.pending <;> simp [issueCheck_eq_none]

/-! ### Commands -/

/-- A command's effect at completion; SOFT_RESET has none, since it acts at its issue. -/
def commandEffect : Instr → State → State
  | .nop => id
  | .keyLoad => keyLoadEffect
  | .encBlock => encBlockEffect
  | .decBlock => decBlockEffect
  | .start => startEffect
  | .process => processEffect
  | .final => finalEffect
  | .abort => abortEffect
  | .gfMul f => gfMulEffect f
  | .gfInv f => gfInvEffect f
  | .gfOrder f => gfOrderEffect f
  | .segPop => segPopEffect
  | .segClear => segClearEffect
  | .rsmRewind => rsmRewindEffect
  | .softReset => id

/-- Every command but SOFT_RESET is `State.command` with its effect. -/
theorem exec_eq_command (i : Instr) (hi : i ≠ .softReset) (s : State) :
    exec i s = s.command i (commandEffect i) := by
  cases i <;> first | rfl | exact absurd rfl hi

/-- SOFT_RESET acts in any turn. -/
theorem exec_softReset (s : State) : exec .softReset s = .next s.resetCore := rfl

/-- Everything `State.command` can do. -/
theorem State.command_cases (s : State) (i : Instr) (f : State → State) :
    (s.turn = .engine ∧ s.command i f = .next (f s).complete) ∨
    (s.turn ≠ .engine ∧ ∃ c, s.failingCheck i = some c ∧ s.command i f = .next (s.reject c)) ∨
    (s.turn = .host ∧ s.failingCheck i = none ∧ s.command i f = .next (s.accept i)) ∨
    (s.turn = .prompt ∧ s.failingCheck i = none ∧ s.command i f = .next (f (s.accept i)).complete) := by
  unfold State.command
  cases ht : s.turn <;> cases ha : s.failingCheck i <;> simp

/-- A command in the engine's turn completes. -/
theorem State.command_engine {s : State} (ht : s.turn = .engine) (i : Instr) (f : State → State) :
    s.command i f = .next (f s).complete := by simp [State.command, ht]

/-- A command turned away at its issue. -/
theorem State.command_rejected {s : State} (ht : s.turn ≠ .engine) {i : Instr} {c : ErrCode}
    (ha : s.failingCheck i = some c) (f : State → State) : s.command i f = .next (s.reject c) := by
  cases h : s.turn <;> simp_all [State.command]

/-- A command accepted in the host's turn. -/
theorem State.command_accepted {s : State} (ht : s.turn = .host) {i : Instr}
    (ha : s.failingCheck i = none) (f : State → State) : s.command i f = .next (s.accept i) := by
  simp [State.command, ht, ha]

/-- A command that completes as it is issued. -/
theorem State.command_prompt {s : State} (ht : s.turn = .prompt) {i : Instr}
    (ha : s.failingCheck i = none) (f : State → State) :
    s.command i f = .next (f (s.accept i)).complete := by
  simp [State.command, ht, ha]

/-- Every command has a next state. -/
theorem exec_next (i : Instr) (s : State) : ∃ t, exec i s = .next t := by
  by_cases hi : i = .softReset
  · subst hi; exact ⟨_, exec_softReset s⟩
  · rw [exec_eq_command i hi]
    rcases State.command_cases s i (commandEffect i) with ⟨-, h⟩ | ⟨-, _, -, h⟩ | ⟨-, -, h⟩ |
      ⟨-, -, h⟩ <;> exact ⟨_, h⟩

/-! ### The bus -/

/-- The register at a register's offset is that register. -/
theorem Reg.ofOffset_offset (r : Reg) : Reg.ofOffset r.offset = some r := by
  cases r <;> decide

/-- Every register's offset is a multiple of 4. -/
theorem Reg.aligned_offset (r : Reg) : aligned r.offset 4 = true := by cases r <;> decide

/-- Everything a read can do. -/
theorem State.busRead_cases (s : State) (off : BitVec 8) (n : Nat) :
    (aligned off n = false ∧ s.busRead off n = s.rejectAlign.respondAny 32) ∨
    (aligned off n = true ∧ s.busRead off n = s.respond 0) ∨
    ∃ r, aligned off n = true ∧ Reg.ofOffset off = some r ∧ r.writeOnly = false ∧
      ((s.busy = true ∧ r = .status ∧ s.busRead off n = s.respondBusyStatus) ∨
        (s.busy = true ∧ r.isResult = true ∧ s.busRead off n = s.respondAny 32) ∨
        ((s.busy = true → r ≠ .status ∧ r.isResult = false) ∧ s.busRead off n = s.readReg r)) := by
  unfold State.busRead
  cases ha : aligned off n with
  | false => exact .inl ⟨rfl, rfl⟩
  | true =>
    cases ho : Reg.ofOffset off with
    | none => exact .inr (.inl ⟨rfl, rfl⟩)
    | some r =>
      cases hw : r.writeOnly with
      | true => exact .inr (.inl ⟨rfl, by simp [hw]⟩)
      | false =>
        refine .inr (.inr ⟨r, rfl, rfl, hw, ?_⟩)
        cases hb : s.busy with
        | false => simp [hw]
        | true =>
          by_cases hr : r = .status
          · exact .inl ⟨rfl, hr, by subst hr; rfl⟩
          · cases hq : r.isResult with
            | true => exact .inr (.inl ⟨rfl, rfl, by simp [hw, hr, hq]⟩)
            | false => exact .inr (.inr ⟨fun _ => ⟨hr, rfl⟩, by simp [hw, hr, hq]⟩)

/-- Everything a write can do. -/
theorem State.busWrite_cases (s : State) (off : BitVec 8) (strb : BitVec 4) (v : Word) :
    s.busWrite off strb v = .next s.rejectAlign ∨ s.busWrite off strb v = .next s ∨
    (off = Reg.cmd.offset ∧ s.busWrite off strb v = s.issue v) ∨
    ∃ r, r.readOnly = false ∧ r ≠ .cmd ∧ s.busWrite off strb v = .next (s.busWriteReg r v) := by
  unfold State.busWrite
  cases ha : aligned off (strobeWidth strb) with
  | false => exact .inl rfl
  | true =>
    cases ho : Reg.ofOffset off with
    | none => exact .inr (.inl rfl)
    | some r =>
      cases hr : r.readOnly with
      | true => exact .inr (.inl (by simp [hr]))
      | false =>
        by_cases hc : r = .cmd
        · subst hc
          refine .inr (.inr (.inl ⟨?_, by simp [hr]⟩))
          have h : (Reg.cmd.offset == off) = true :=
            List.find?_some (p := fun r : Reg => r.offset == off) ho
          exact (eq_of_beq h).symm
        · exact .inr (.inr (.inr ⟨r, hr, hc, by simp [hr, hc]⟩))

/-- Everything an accepted or rejected write to a register other than CMD can do. -/
theorem State.busWriteReg_cases (s : State) (r : Reg) (v : Word) :
    (s.busy = true ∧ r.busyExempt = false ∧ s.busWriteReg r v = s.reject .busy) ∨
    (s.session = true ∧ r.locked = true ∧ s.busWriteReg r v = s.reject .locked) ∨
    ((s.busy = true → r.busyExempt = true) ∧ (s.session = true → r.locked = false) ∧
      s.busWriteReg r v = s.writeReg v r) := by
  unfold State.busWriteReg
  cases s.busy <;> cases r.busyExempt <;> cases s.session <;> cases r.locked <;> simp

/-- A 32-bit write at a register's offset. -/
theorem State.busWrite_offset (s : State) (r : Reg) (v : Word) :
    s.busWrite r.offset 0b1111 v =
      if r.readOnly then .next s else if r = .cmd then s.issue v
      else .next (s.busWriteReg r v) := by
  cases r <;> rfl

/-- A word written to CMD always leaves a next state. -/
theorem State.issue_next (s : State) (w : Word) : ∃ t, s.issue w = .next t := by
  unfold State.issue
  cases decode w with
  | ok i => exact exec_next i s
  | error e => exact ⟨_, rfl⟩

/-- Every access of the host leaves a next state. -/
theorem State.busAccess_next (s : State) (a : BusAccess) : ∃ t, s.busAccess a = .next t := by
  cases a with
  | read off n => exact ⟨_, rfl⟩
  | write off strb v =>
    simp only [State.busAccess]
    rcases State.busWrite_cases { s with slverr := false } off strb v with
      h | h | ⟨-, h⟩ | ⟨_, -, -, h⟩
    · exact ⟨_, h⟩
    · exact ⟨_, h⟩
    · rw [h]; exact State.issue_next _ _
    · exact ⟨_, h⟩

/-- The engine's move always leaves a next state. -/
theorem State.engineMove_next (s : State) : ∃ t, s.engineMove = .next t := by
  unfold State.engineMove
  cases s.pending with
  | none => exact ⟨_, rfl⟩
  | some i => exact exec_next i _

/-! ### Moves and steps -/

theorem step_nil {s : State} (h : s.inputs = []) : step s = s.engineMove := by
  simp [step, State.advance, h]

theorem step_cons {s : State} {m : Input} {rest : List Input} (h : s.inputs = m :: rest) :
    step s = { s with inputs := rest }.move m := by
  simp [step, State.advance, h]

/-- An access that leaves one state whatever the turn is served so. -/
theorem serves_of {s : State} {a : BusAccess} {t : State}
    (h : ∀ (rest : List Input) (k : Turn), k ≠ .engine →
      State.busAccess { s with inputs := rest, turn := k } a =
        .next { t with inputs := rest, turn := k }) : Serves s a t := fun rest =>
  ⟨h rest .host (by decide), h rest .prompt (by decide)⟩

/-- A 32-bit read at a register's offset, as the host's next move. -/
theorem serves_read {s t : State} (r : Reg)
    (h : ∀ (rest : List Input) (k : Turn),
      State.busRead { s with inputs := rest, turn := k, slverr := false } r.offset 4 =
        { t with inputs := rest, turn := k }) : Serves s (readAt r.offset) t :=
  serves_of fun rest k _ => congrArg Host.Outcome.next (h rest k)

/-- A 32-bit write at the offset of a register other than CMD that is not read-only, as the host's next
move. -/
theorem serves_write {s t : State} {v : Word} (r : Reg) (hr : r.readOnly = false) (hc : r ≠ .cmd)
    (h : ∀ (rest : List Input) (k : Turn),
      State.busWriteReg { s with inputs := rest, turn := k, slverr := false } r v =
        { t with inputs := rest, turn := k }) : Serves s (writeAt r.offset v) t :=
  serves_of fun rest k _ => by
    simp only [State.busAccess, State.busWrite_offset, hr, hc, Bool.false_eq_true, if_false]
    exact congrArg Host.Outcome.next (h rest k)

end Sys2Proof.Machine
end

