-- ==== Sys2Proof/Laws/HostProgram.lean ====
section
/-! SUPPORT. How a host program runs beside the engine: one turn at a time, one schedule after another,
and one program after another. -/

namespace Sys2Proof.Machine

open Sys2Proof.Safety

@[simp] theorem byteGroups_length (m : List Byte) : (byteGroups m).length = (m.length + 7) / 8 := by
  simp [byteGroups]

@[simp] theorem transactions_append (a b : List BusAccess) :
    transactions (a ++ b) = transactions a ++ transactions b := by simp [transactions]

@[simp] theorem readsOf_nil (r : Reg) : readsOf r [] = [] := rfl

@[simp] theorem readsOf_append (r : Reg) (a b : List ReadResult) :
    readsOf r (a ++ b) = readsOf r a ++ readsOf r b := by simp [readsOf]

@[simp] theorem runProgram_nil (p : List Statement) (s : State) :
    runProgram [] p s = some { seen := [], left := p, state := s } := rfl

/-- A turn that makes a move. -/
theorem runProgram_cons {a : Agent} {p : List Statement} {m : Input} {s t : State}
    (hm : a.move p = some m) (ht : step { s with inputs := [m] } = .next t) (schedule : List Agent) :
    runProgram (a :: schedule) p s =
      (runProgram schedule (a.leftAfter t p) t).map fun r => { r with seen := m.seen t ++ r.seen } := by
  simp only [runProgram, hm, ht]
  cases runProgram schedule (a.leftAfter t p) t <;> rfl

/-- A host with nothing left to do makes no move, however many turns it has. -/
@[simp] theorem runProgram_idle (n : Nat) (s : State) :
    runProgram (List.replicate n .host) [] s = some { seen := [], left := [], state := s } := by
  induction n with
  | zero => rfl
  | succ n ih => simpa [List.replicate_succ, runProgram, Agent.move] using ih

/-- No move of a schedule stops the model. -/
theorem Agent.move_next (a : Agent) (p : List Statement) {m : Input} (h : a.move p = some m)
    (s : State) : ∃ t, step { s with inputs := [m] } = .next t := by
  have host : ∀ b, ∃ t, step { s with inputs := [.host b] } = .next t := fun b =>
    State.busAccess_next { s with inputs := [], turn := .host } b
  have prompt : ∀ b, ∃ t, step { s with inputs := [.hostPrompt b] } = .next t := fun b =>
    State.busAccess_next { s with inputs := [], turn := .prompt } b
  cases a <;> cases p <;> simp only [Agent.move, Option.some.injEq, reduceCtorEq] at h <;> subst h
  · exact host _
  · exact prompt _
  · exact State.engineMove_next { s with inputs := [] }
  · exact State.engineMove_next { s with inputs := [] }
  · exact ⟨_, rfl⟩
  · exact ⟨_, rfl⟩

/-- Every host program runs, under every schedule. -/
theorem runProgram_total (schedule : List Agent) (p : List Statement) (s : State) :
    ∃ r, runProgram schedule p s = some r := by
  induction schedule generalizing p s with
  | nil => exact ⟨_, rfl⟩
  | cons a schedule ih =>
    cases hm : a.move p with
    | none => simpa [runProgram, hm] using ih p s
    | some m =>
      obtain ⟨t, ht⟩ := a.move_next p hm s
      obtain ⟨r, hr⟩ := ih (a.leftAfter t p) t
      exact ⟨_, by rw [runProgram_cons hm ht, hr]; rfl⟩

/-- One schedule after another. -/
theorem runProgram_append (a b : List Agent) (p : List Statement) (s : State) :
    runProgram (a ++ b) p s =
      (runProgram a p s).bind fun r =>
        (runProgram b r.left r.state).map fun r' => { r' with seen := r.seen ++ r'.seen } := by
  induction a generalizing p s with
  | nil => cases h : runProgram b p s <;> simp [h]
  | cons x a ih =>
    cases hm : x.move p with
    | none => simp only [List.cons_append, runProgram, hm, ih]
    | some m =>
      obtain ⟨t, ht⟩ := x.move_next p hm s
      rw [List.cons_append, runProgram_cons hm ht, runProgram_cons hm ht, ih]
      obtain ⟨r, hr⟩ := runProgram_total a (x.leftAfter t p) t
      obtain ⟨r', hr'⟩ := runProgram_total b r.left r.state
      simp [hr, hr']

/-- A host turn for a bus transaction, when what it leaves is known. -/
theorem runProgram_bus {s t : State} {a : BusAccess} (h : Serves s a t) (rest : List Statement) :
    runProgram [.host] (.bus a :: rest) s = some
      { seen := (Input.host a).seen t, left := rest,
        state := { t with inputs := [], turn := .host } } ∧
    runProgram [.hostPrompt] (.bus a :: rest) s = some
      { seen := (Input.host a).seen t, left := rest,
        state := { t with inputs := [], turn := .prompt } } := by
  constructor
  · simp only [runProgram, Agent.move, Statement.access, (h []).1]
    cases a <;> rfl
  · simp only [runProgram, Agent.move, Statement.access, (h []).2]
    cases a <;> rfl

/-- STATUS.BUSY is bit 0 of a STATUS word. -/
@[simp] theorem statusWord_bit0 (c : BitVec 8) (f : BitVec 6) (b : Bool) :
    (statusWord c f b).getLsbD 0 = b := by
  unfold statusWord
  rw [BitVec.getLsbD_append]
  simp

/-- A host turn at WAIT while a command is in flight: STATUS reads bit 0 = 1, so WAIT repeats. -/
theorem runProgram_wait_busy {s : State} (h : s.pending ≠ none) (rest : List Statement) :
    ∃ v : Word, v.getLsbD 0 = true ∧
      runProgram [.host] (.wait :: rest) s = some
        { seen := [{ off := 0x04, data := v }], left := .wait :: rest,
          state := { s with
            slverr := false, rdata := v, free := s.free + 1, inputs := [], turn := .host } } := by
  refine ⟨statusWord (s.anyNext.extractLsb' 8 8) (s.anyNext.extractLsb' 0 6) true,
    statusWord_bit0 _ _ _, ?_⟩
  obtain ⟨i, hi⟩ := Option.ne_none_iff_exists'.1 h
  have ht : step { s with inputs := [.host (rd .status)] } = .next { s with
      slverr := false, free := s.free + 1, inputs := [], turn := .host,
      rdata := statusWord (s.anyNext.extractLsb' 8 8) (s.anyNext.extractLsb' 0 6) true } := by
    rcases s with ⟨⟩
    simp only at hi
    subst hi
    rfl
  rw [runProgram_cons (m := .host (rd .status)) rfl ht]
  simp only [Agent.leftAfter, Statement.leftAfter, statusWord_bit0]
  rfl

/-- A host turn at WAIT with no command in flight: STATUS reads bit 0 = 0, so WAIT ends. -/
theorem runProgram_wait_idle {s : State} (h : s.pending = none) (rest : List Statement) :
    ∃ v : Word, v.getLsbD 0 = false ∧
      runProgram [.host] (.wait :: rest) s = some
        { seen := [{ off := 0x04, data := v }], left := rest,
          state := { s with slverr := false, rdata := v, inputs := [], turn := .host } } ∧
      runProgram [.hostPrompt] (.wait :: rest) s = some
        { seen := [{ off := 0x04, data := v }], left := rest,
          state := { s with slverr := false, rdata := v, inputs := [], turn := .prompt } } := by
  have h0 := statusWord_bit0 s.statusCounts s.statusFlags false
  refine ⟨statusWord s.statusCounts s.statusFlags false, h0, ?_, ?_⟩
  · have ht : step { s with inputs := [.host (rd .status)] } = .next { s with
        slverr := false, inputs := [], turn := .host,
        rdata := statusWord s.statusCounts s.statusFlags false } := by
      rcases s with ⟨⟩
      simp only at h
      subst h
      rfl
    rw [runProgram_cons (m := .host (rd .status)) rfl ht]
    simp only [Agent.leftAfter, Statement.leftAfter, h0]
    rfl
  · have ht : step { s with inputs := [.hostPrompt (rd .status)] } = .next { s with
        slverr := false, inputs := [], turn := .prompt,
        rdata := statusWord s.statusCounts s.statusFlags false } := by
      rcases s with ⟨⟩
      simp only at h
      subst h
      rfl
    rw [runProgram_cons (m := .hostPrompt (rd .status)) rfl ht]
    simp only [Agent.leftAfter, Statement.leftAfter, h0]
    rfl

/-- A turn does at most one statement. -/
theorem runProgram_length {schedule : List Agent} {p : List Statement} {s : State} {r : HostRun}
    (h : runProgram schedule p s = some r) : p.length ≤ r.left.length + schedule.length := by
  induction schedule generalizing p s r with
  | nil => cases h; simp
  | cons a schedule ih =>
    cases hm : a.move p with
    | none =>
      simp only [runProgram, hm] at h
      have := ih h
      simp only [List.length_cons]
      omega
    | some m =>
      obtain ⟨t, ht⟩ := a.move_next p hm s
      rw [runProgram_cons hm ht] at h
      obtain ⟨r', hr', rfl⟩ := Option.map_eq_some_iff.1 h
      have h1 := ih hr'
      have h2 : p.length ≤ (a.leftAfter t p).length + 1 := by
        cases a <;> cases p <;> simp [Agent.leftAfter]
      simp only [List.length_cons]
      omega

/-- One prompt program after another: the first must be done in its own turns. -/
theorem promptRun_append {p q : List Statement} {s : State} {r r' : HostRun}
    (hp : promptRun p s = some r) (hl : r.left = []) (hq : promptRun q r.state = some r') :
    promptRun (p ++ q) s = some { r' with seen := r.seen ++ r'.seen } := by
  induction p generalizing s r with
  | nil => cases hp; simpa using hq
  | cons c p ih =>
    simp only [promptRun, List.length_cons, List.replicate_succ, List.cons_append] at hp ⊢
    obtain ⟨t, ht⟩ := Agent.move_next .hostPrompt (c :: p) rfl s
    rw [runProgram_cons (m := .hostPrompt c.access) rfl ht] at hp ⊢
    obtain ⟨r₁, hr, rfl⟩ := Option.map_eq_some_iff.1 hp
    have hc : c.leftAfter t = [] := by
      have h := runProgram_length hr
      rw [show r₁.left = [] from hl] at h
      simp only [Agent.leftAfter, List.length_append, List.length_replicate, List.length_nil] at h
      exact List.eq_nil_of_length_eq_zero (by omega)
    simp only [Agent.leftAfter, hc, List.nil_append] at hr ⊢
    have := ih hr hl hq
    simp only [promptRun] at this
    rw [this]
    simp

end Sys2Proof.Machine
end

