-- ==== Sys2Proof/Laws/HostText.lean ====
section
/-! SUPPORT. The host's ciphertext text comes back as the blocks it was written from (42_adapter.md
R128, R129). -/

namespace Sys2Proof.Machine

theorem hexValue_hexDigit : ∀ d : BitVec 4, hexValue (hexDigit d.toNat) = some d.toNat := by decide

theorem blockHex_length (b : Block) : (blockHex b).length = 16 := by simp [blockHex]

/-- Reading the digits of a list of nibbles. -/
theorem hexNumber_digits (l : List (BitVec 4)) (acc : Nat) :
    hexNumber acc (l.map fun d => hexDigit d.toNat) =
      some (l.foldl (fun n d => 16 * n + d.toNat) acc) := by
  induction l generalizing acc with
  | nil => rfl
  | cons d l ih => simp [hexNumber, hexValue_hexDigit, ih]

/-- The first n nibbles of a block are its top 4 * n bits. -/
theorem foldl_nibbles (b : Block) (n : Nat) (h : n ≤ 16) :
    ((List.range n).map fun j => b.extractLsb' (60 - 4 * j) 4).foldl (fun n d => 16 * n + d.toNat) 0 =
      b.toNat / 2 ^ (64 - 4 * n) := by
  induction n with
  | zero => simp [Nat.div_eq_of_lt b.isLt]
  | succ n ih =>
    rw [List.range_succ, List.map_append, List.foldl_append, ih (by omega)]
    have hp : (2 : Nat) ^ (64 - 4 * n) = 2 ^ (60 - 4 * n) * 16 := by
      rw [show 64 - 4 * n = 60 - 4 * n + 4 by omega, Nat.pow_add]
    rw [hp, ← Nat.div_div_eq_div_mul, show 64 - 4 * (n + 1) = 60 - 4 * n by omega]
    simp only [List.map_cons, List.map_nil, List.foldl_cons, List.foldl_nil, BitVec.extractLsb'_toNat,
      Nat.shiftRight_eq_div_pow]
    omega

/-- The 16 digits of a block denote it. -/
theorem hexNumber_blockHex (b : Block) : hexNumber 0 (blockHex b) = some b.toNat := by
  have h : blockHex b =
      ((List.range 16).map fun j => b.extractLsb' (60 - 4 * j) 4).map fun d => hexDigit d.toNat := by
    simp only [blockHex, List.map_map, Function.comp_def]
  rw [h, hexNumber_digits, foldl_nibbles b 16 (by omega)]
  simp

theorem ciphertextHex_length (bs : List Block) : (ciphertextHex bs).length = 16 * bs.length := by
  induction bs with
  | nil => rfl
  | cons b bs ih =>
    simp only [ciphertextHex, List.flatMap_cons, List.length_append, blockHex_length,
      List.length_cons] at *
    omega

theorem parseBlocks_ciphertextHex (bs : List Block) :
    parseBlocks bs.length (ciphertextHex bs) = .ok bs := by
  induction bs with
  | nil => rfl
  | cons b bs ih =>
    have ht : (ciphertextHex (b :: bs)).take 16 = blockHex b := by
      simp [ciphertextHex, blockHex_length]
    have hd : (ciphertextHex (b :: bs)).drop 16 = ciphertextHex bs := by
      simp [ciphertextHex, blockHex_length]
    simp only [List.length_cons, parseBlocks, ht, hd, hexNumber_blockHex, ih, BitVec.ofNat_toNat,
      BitVec.setWidth_eq]

/-- R129 reads back what R128 writes. -/
theorem parseCiphertext_ciphertextHex (bs : List Block) :
    parseCiphertext (ciphertextHex bs) = .ok bs := by
  simp [parseCiphertext, ciphertextHex_length, parseBlocks_ciphertextHex]

/-- In mode 6 the last block written is read as the tag. -/
theorem parseReceived_ciphertextHex_gcm (bs : List Block) (tag : Block) :
    parseReceived .gcm (ciphertextHex (bs ++ [tag])) = .ok (bs, some tag) := by
  cases bs with
  | nil => simp [parseReceived, parseAuthenticated, parseCiphertext_ciphertextHex]
  | cons b bs =>
    simp only [parseReceived, parseAuthenticated, parseCiphertext_ciphertextHex, if_true,
      List.cons_append]
    have h : (b :: (bs ++ [tag])).dropLast = b :: bs := by
      rw [← List.cons_append, List.dropLast_concat]
    simp [h]

theorem parseReceived_ciphertextHex {mode : Mode} (h : mode ≠ .gcm) (bs : List Block) :
    parseReceived mode (ciphertextHex bs) = .ok (bs, none) := by
  simp [parseReceived, h, parseCiphertext_ciphertextHex]

end Sys2Proof.Machine
end

