-- ==== Sys2Proof/Laws/PerInstr.lean ====
section
/-! SUPPORT. Statements made of each command by itself. -/

/-- A command is well formed and comes back from its word. -/
def Sys2Proof.Laws.Roundtrip.Statement (i : Sys2Proof.Instr) : Prop :=
  i.wellFormed = true ∧ Sys2Proof.decode (Sys2Proof.encode i) = .ok i

namespace Sys2Proof.Laws.Roundtrip

theorem nop : Statement .nop := ⟨by decide, by decide⟩

theorem keyLoad : Statement .keyLoad := ⟨by decide, by decide⟩

theorem encBlock : Statement .encBlock := ⟨by decide, by decide⟩

theorem decBlock : Statement .decBlock := ⟨by decide, by decide⟩

theorem start : Statement .start := ⟨by decide, by decide⟩

theorem process : Statement .process := ⟨by decide, by decide⟩

theorem final : Statement .final := ⟨by decide, by decide⟩

theorem abort : Statement .abort := ⟨by decide, by decide⟩

theorem gfMul (f : FieldSel) : Statement (.gfMul f) := by cases f <;> exact ⟨by decide, by decide⟩

theorem gfInv (f : FieldSel) : Statement (.gfInv f) := by cases f <;> exact ⟨by decide, by decide⟩

theorem gfOrder (f : FieldSel) : Statement (.gfOrder f) := by
  cases f <;> exact ⟨by decide, by decide⟩

theorem segPop : Statement .segPop := ⟨by decide, by decide⟩

theorem segClear : Statement .segClear := ⟨by decide, by decide⟩

theorem rsmRewind : Statement .rsmRewind := ⟨by decide, by decide⟩

theorem softReset : Statement .softReset := ⟨by decide, by decide⟩

end Sys2Proof.Laws.Roundtrip
end

