-- ==== Sys2Proof/Laws/Sbox.lean ====
section
/-! SUPPORT. The S-box generator on a box packed into one number, entry v at bits 8v+7:8v, and the
proof that it is the generator of Machine/Cipher.lean. Lean's kernel evaluates this one cheaply, so
the tests against spec/95_test_vectors.md run on it. -/

namespace Sys2Proof.Machine

/-- Entry v of a packed box. -/
def packedGet (t v : Nat) : Nat := (t >>> (8 * v)) % 256

/-- A packed box with d added to entry v. -/
def packedXor (t v d : Nat) : Nat := t ^^^ (d <<< (8 * v))

/-- `sboxRound` on a packed box. -/
def packedRound (k : Key) (st : Nat × Nat) (i : Nat) : Nat × Nat :=
  let j := (st.2 + packedGet st.1 i + (keyByte k (i % 16)).toNat) % 256
  let d := packedGet st.1 i ^^^ packedGet st.1 j
  (packedXor (packedXor st.1 i d) j d, j)

/-- The identity box up to entry n, packed. -/
def packedIdentity : Nat → Nat
  | 0 => 0
  | n + 1 => packedXor (packedIdentity n) n n

/-- `generateSbox`, packed. -/
def packedSbox (k : Key) : Nat :=
  ((List.range 256).foldl (packedRound k) (packedIdentity 256, 0)).1

theorem packedGet_xor (t v d w : Nat) (hd : d < 256) :
    packedGet (packedXor t v d) w = if w = v then packedGet t w ^^^ d else packedGet t w := by
  apply Nat.eq_of_testBit_eq
  intro b
  unfold packedGet packedXor
  rw [show 256 = 2 ^ 8 from rfl, Nat.testBit_mod_two_pow, Nat.testBit_shiftRight,
    Nat.testBit_xor, Nat.testBit_shiftLeft]
  by_cases hb : b < 8
  · by_cases hw : w = v
    · subst hw
      rw [if_pos rfl, Nat.testBit_xor, Nat.testBit_mod_two_pow, Nat.testBit_shiftRight]
      simp [hb]
    · rw [if_neg hw, Nat.testBit_mod_two_pow, Nat.testBit_shiftRight]
      have hz : (decide (8 * w + b ≥ 8 * v) && d.testBit (8 * w + b - 8 * v)) = false := by
        by_cases hlt : 8 * w + b < 8 * v
        · simp; omega
        · have : d.testBit (8 * w + b - 8 * v) = false :=
            Nat.testBit_lt_two_pow
              (lt_of_lt_of_le (show d < 2 ^ 8 from hd)
                (Nat.pow_le_pow_right (by decide) (by omega)))
          simp [this]
      rw [hz]; simp
  · have hl : d.testBit b = false :=
      Nat.testBit_lt_two_pow
        (lt_of_lt_of_le (show d < 2 ^ 8 from hd)
          (Nat.pow_le_pow_right (by decide) (by omega)))
    split
    · rw [Nat.testBit_xor, Nat.testBit_mod_two_pow]; simp [hb, hl]
    · rw [Nat.testBit_mod_two_pow]; simp [hb]

/-- A packed box holds the entries of a box. -/
def Packs (t : Nat) (s : Vector Byte 256) : Prop := ∀ v : Fin 256, packedGet t v.val = s[v].toNat

theorem packedGet_lt (t v : Nat) : packedGet t v < 256 := Nat.mod_lt _ (by decide)

theorem packedGet_identity (n v : Nat) (hn : n ≤ 256) :
    packedGet (packedIdentity n) v = if v < n then v else 0 := by
  induction n with
  | zero => simp [packedIdentity, packedGet]
  | succ n ih =>
    rw [packedIdentity, packedGet_xor _ _ _ _ (by omega), ih (by omega)]
    by_cases hv : v = n
    · subst hv; simp
    · have : (v < n + 1) = (v < n) := propext (by omega)
      simp [hv, this]

theorem packs_identity : Packs (packedIdentity 256) identityBox := fun v => by
  rw [packedGet_identity 256 v.val (Nat.le_refl _), if_pos v.isLt]
  simp [identityBox]

/-- A swap keeps the packing. -/
theorem packs_swap (t : Nat) (s : Vector Byte 256) (i : Fin 256) (m : Byte) (h : Packs t s) :
    Packs (packedXor (packedXor t i.val (packedGet t i.val ^^^ packedGet t m.toNat)) m.toNat
      (packedGet t i.val ^^^ packedGet t m.toNat)) (s.swap i.val m.toNat i.isLt m.isLt) := fun v => by
  have hd : packedGet t i.val ^^^ packedGet t m.toNat < 256 :=
    Nat.xor_lt_two_pow (n := 8) (packedGet_lt _ _) (packedGet_lt _ _)
  rw [packedGet_xor _ _ _ _ hd, packedGet_xor _ _ _ _ hd]
  have hm := h ⟨m.toNat, m.isLt⟩
  have hi := h i
  have hv := h v
  simp only [Fin.getElem_fin] at hm hi hv ⊢
  rw [Vector.getElem_swap]
  by_cases h1 : v.val = m.toNat
  · by_cases h2 : v.val = i.val
    · have hmi : m.toNat = i.val := h1 ▸ h2
      simp [h2, hmi, hi]
    · rw [if_pos h1, if_neg h2, if_neg h2, if_pos h1, h1, Nat.xor_comm (packedGet t i.val),
        ← Nat.xor_assoc, Nat.xor_self, Nat.zero_xor, hi]
  · by_cases h2 : v.val = i.val
    · rw [if_neg h1, if_pos h2, if_pos h2, h2, ← Nat.xor_assoc, Nat.xor_self, Nat.zero_xor, hm]
    · rw [if_neg h1, if_neg h2, if_neg h2, if_neg h1, hv]

/-- One round keeps the packing. -/
theorem packs_round (k : Key) (t : Nat) (s : Vector Byte 256) (j : Byte) (i : Fin 256)
    (h : Packs t s) :
    Packs (packedRound k (t, j.toNat) i.val).1 (sboxRound k (s, j) i).1 ∧
      (packedRound k (t, j.toNat) i.val).2 = (sboxRound k (s, j) i).2.toNat := by
  have hj : (j.toNat + packedGet t i.val + (keyByte k (i.val % 16)).toNat) % 256 =
      (j + s[i] + keyByte k (i.val % 16)).toNat := by
    rw [h i]; simp [BitVec.toNat_add]
  refine ⟨?_, hj⟩
  simp only [packedRound, sboxRound, hj]
  exact packs_swap t s i (j + s[i] + keyByte k (i.val % 16)) h

theorem packs_rounds (k : Key) (l : List (Fin 256)) :
    ∀ (t : Nat) (s : Vector Byte 256) (j : Byte), Packs t s →
      Packs ((l.map Fin.val).foldl (packedRound k) (t, j.toNat)).1
        (l.foldl (sboxRound k) (s, j)).1 := by
  induction l with
  | nil => exact fun _ _ _ h => h
  | cons i l ih =>
    intro t s j h
    obtain ⟨h1, h2⟩ := packs_round k t s j i h
    simp only [List.map_cons, List.foldl_cons]
    rw [show packedRound k (t, j.toNat) i.val =
      ((packedRound k (t, j.toNat) i.val).1, (sboxRound k (s, j) i).2.toNat) from Prod.ext rfl h2]
    exact ih _ _ _ h1

/-- The S-box of a key, read from its packed form. -/
theorem generateSbox_eq_packed (k : Key) :
    generateSbox k = Vector.ofFn fun v => BitVec.ofNat 8 (packedGet (packedSbox k) v.val) := by
  have h := packs_rounds k (List.finRange 256) (packedIdentity 256) identityBox 0 packs_identity
  rw [List.map_coe_finRange_eq_range] at h
  apply Vector.ext
  intro v hv
  have hq := h ⟨v, hv⟩
  simp only [Fin.getElem_fin] at hq
  rw [Vector.getElem_ofFn]
  apply BitVec.eq_of_toNat_eq
  unfold generateSbox packedSbox
  rw [BitVec.toNat_ofNat, show (0 : Nat) = (0 : Byte).toNat from rfl, hq,
    Nat.mod_eq_of_lt (BitVec.isLt _)]

/-- `deriveSchedule` with the S-boxes read from their packed forms. -/
theorem deriveSchedule_eq_packed (k c : Key) :
    deriveSchedule k c =
      { deriveSchedule k c with
        sbox1 := Vector.ofFn fun v => BitVec.ofNat 8 (packedGet (packedSbox k) v.val)
        sbox2 := Vector.ofFn fun v =>
          BitVec.ofNat 8 (packedGet (packedSbox (modifiedKey k c)) v.val) } := by
  rw [← generateSbox_eq_packed, ← generateSbox_eq_packed]
  rfl

end Sys2Proof.Machine
end

