-- ==== Sys2Proof/Laws/Session.lean ====
section
/-! SUPPORT. What the session commands do at completion, and the fields of CTRL they turn on. -/

namespace Sys2Proof.Machine

theorem State.dir_of_clear {s : State} (h : s.ctrl.getLsbD 3 = false) : s.dir = .encrypt := by
  unfold State.dir; rw [h]; rfl

theorem State.dir_of_set {s : State} (h : s.ctrl.getLsbD 3 = true) : s.dir = .decrypt := by
  unfold State.dir; rw [h]; rfl

/-- The tag polynomial by the bit TAGFSEL. -/
theorem State.tagPoly_eq (s : State) :
    s.tagPoly = if s.ctrl.getLsbD 4 then s.fpoly8.toNat else s.fpoly16.toNat := by
  unfold State.tagPoly State.tagField
  cases s.ctrl.getLsbD 4 <;> rfl

/-- START outside mode 6. -/
theorem startEffect_plain {s : State} (h : s.ctrl.extractLsb' 0 3 ≠ 6) :
    startEffect s =
      { s with
        session := true, blkidx := 0, siglen := 0, authValid := false, authOk := false,
        chain := s.iv, tagacc := 0 } := by
  unfold startEffect
  rw [if_neg (by rwa [State.mode_eq_gcm])]

/-- START in mode 6. -/
theorem startEffect_gcm {s : State} (h : s.ctrl.extractLsb' 0 3 = 6) :
    startEffect s =
      { s with
        session := true, blkidx := 0, siglen := 0, authValid := false, authOk := false,
        chain := s.iv, tagacc := 0, hsub := s.encryption 0, zblk := s.encryption s.iv } := by
  unfold startEffect
  rw [if_pos (by rwa [State.mode_eq_gcm])]

/-- PROCESS in a mode the spec gives a step. -/
theorem processEffect_eq {s : State} (h : s.ctrl.extractLsb' 0 3 ≠ 7) :
    processEffect s = s.afterStep (s.modeStep s.din s.blkidx) := by
  have hm : s.mode ≠ .reserved := fun e => h ((s.mode_eq_reserved).1 e)
  unfold processEffect
  split
  · exact absurd ‹_› hm
  all_goals rfl

/-- FINAL outside mode 6. -/
theorem finalEffect_plain {s : State} (h : s.ctrl.extractLsb' 0 3 ≠ 6) :
    finalEffect s = { s with session := false } := by
  unfold finalEffect
  rw [if_neg (by rwa [State.mode_eq_gcm])]

/-- FINAL in mode 6, encrypting. -/
theorem finalEffect_tag {s : State} (h : s.ctrl.extractLsb' 0 3 = 6)
    (hd : s.ctrl.getLsbD 3 = false) :
    finalEffect s = { s.setDout s.finalTag with session := false } := by
  unfold finalEffect gcmFinal
  rw [if_pos (by rwa [State.mode_eq_gcm]), State.dir_of_clear hd]

/-- FINAL in mode 6, decrypting, with the right tag in DIN. -/
theorem finalEffect_match {s : State} (h : s.ctrl.extractLsb' 0 3 = 6)
    (hd : s.ctrl.getLsbD 3 = true) (ht : s.finalTag = s.din) :
    finalEffect s = { s with session := false, authValid := true, authOk := true } := by
  unfold finalEffect gcmFinal
  rw [if_pos (by rwa [State.mode_eq_gcm]), State.dir_of_set hd]
  simp [ht]

/-- FINAL in mode 6, decrypting, with a wrong tag in DIN. -/
theorem finalEffect_mismatch {s : State} (h : s.ctrl.extractLsb' 0 3 = 6)
    (hd : s.ctrl.getLsbD 3 = true) (ht : s.finalTag ≠ s.din) :
    finalEffect s =
      { s with
        session := false, authValid := true, authOk := false,
        irqStat := s.irqStat ||| irqAuthFail } := by
  unfold finalEffect gcmFinal
  rw [if_pos (by rwa [State.mode_eq_gcm]), State.dir_of_set hd]
  simp [ht]

end Sys2Proof.Machine
end

