-- ==== Sys2Proof/Tests/Slice0.lean ====
section
/-! SUPPORT. The model's own tests. Every expected value is one of spec/95_test_vectors.md or is
worked out by hand from the rule a comment names. The theorems named witness_<Name> show states and
operands that meet the hypotheses of Obligations.<Name>, each clause's in turn. -/

namespace Sys2Proof.Tests

open Sys2Proof.Machine Sys2Proof.Safety

/-! ### WellFormed: an ill-formed term for each check -/

/-- Opcode 0x04 is not assigned (R81). -/
theorem test_wellFormed_refuses_unassigned_opcode :
    (⟨0x04, 0, 0⟩ : CommandFields).opcAssigned = false ∧
    (⟨0x04, 0, 0⟩ : CommandFields).wellFormed = false := by decide

/-- NOP with bit 31 set (R78). -/
theorem test_wellFormed_refuses_reserved_bits :
    (⟨0x00, 0, 0x400000⟩ : CommandFields).rsvZero = false ∧
    (⟨0x00, 0, 0x400000⟩ : CommandFields).wellFormed = false := by decide

/-- KEY_LOAD, a command of format C, with bit 8 set (R78). -/
theorem test_wellFormed_refuses_f16_in_format_C :
    (⟨0x01, 1, 0⟩ : CommandFields).f16Allowed = false ∧
    (⟨0x01, 1, 0⟩ : CommandFields).wellFormed = false := by decide

theorem test_wellFormed_admits_gfMul16 : (⟨0x20, 1, 0⟩ : CommandFields).wellFormed = true := by
  decide

/-! ### Decode: every word written out from its encoding, bits 31:9, bit 8, bits 7:0 (R78, R79, R81) -/

theorem test_decode_nop : decode (0#23 ++ 0#1 ++ 0b00000000#8) = .ok .nop := by decide
theorem test_decode_keyLoad : decode (0#23 ++ 0#1 ++ 0b00000001#8) = .ok .keyLoad := by decide
theorem test_decode_encBlock : decode (0#23 ++ 0#1 ++ 0b00000010#8) = .ok .encBlock := by decide
theorem test_decode_decBlock : decode (0#23 ++ 0#1 ++ 0b00000011#8) = .ok .decBlock := by decide
theorem test_decode_start : decode (0#23 ++ 0#1 ++ 0b00010000#8) = .ok .start := by decide
theorem test_decode_process : decode (0#23 ++ 0#1 ++ 0b00010001#8) = .ok .process := by decide
theorem test_decode_final : decode (0#23 ++ 0#1 ++ 0b00010010#8) = .ok .final := by decide
theorem test_decode_abort : decode (0#23 ++ 0#1 ++ 0b00010011#8) = .ok .abort := by decide
theorem test_decode_gfMul : decode (0#23 ++ 0#1 ++ 0b00100000#8) = .ok (.gfMul .deg8) := by decide
theorem test_decode_gfMul16 : decode (0#23 ++ 1#1 ++ 0b00100000#8) = .ok (.gfMul .deg16) := by
  decide
theorem test_decode_gfInv : decode (0#23 ++ 0#1 ++ 0b00100001#8) = .ok (.gfInv .deg8) := by decide
theorem test_decode_gfInv16 : decode (0#23 ++ 1#1 ++ 0b00100001#8) = .ok (.gfInv .deg16) := by
  decide
theorem test_decode_gfOrder : decode (0#23 ++ 0#1 ++ 0b00100010#8) = .ok (.gfOrder .deg8) := by
  decide
theorem test_decode_gfOrder16 : decode (0#23 ++ 1#1 ++ 0b00100010#8) = .ok (.gfOrder .deg16) := by
  decide
theorem test_decode_segPop : decode (0#23 ++ 0#1 ++ 0b00110000#8) = .ok .segPop := by decide
theorem test_decode_segClear : decode (0#23 ++ 0#1 ++ 0b00110001#8) = .ok .segClear := by decide
theorem test_decode_rsmRewind : decode (0#23 ++ 0#1 ++ 0b00110010#8) = .ok .rsmRewind := by decide
theorem test_decode_softReset : decode (0#23 ++ 0#1 ++ 0b11111111#8) = .ok .softReset := by decide

/-- The ILLEGAL words of 30_encoding.md and 95_test_vectors.md: an unassigned opcode, GF_MUL with bit 9,
KEY_LOAD with bit 8, SOFT_RESET with bit 31. -/
theorem test_decode_rejects :
    decode 0x00000004 = .error .unassignedOpcode ∧ decode 0x00000220 = .error .reservedBits ∧
    decode 0x00000101 = .error .reservedBits ∧ decode 0x800000FF = .error .reservedBits := by decide

/-- Bytes are read lane 0 first; a byte too few or too many is no word. -/
theorem test_decodeBytes :
    decodeBytes [0x20, 0x01, 0x00, 0x00] = .ok (.gfMul .deg16) ∧
    decodeBytes [0x20, 0x01, 0x00] = .error .notOneWord ∧ decodeBytes [] = .error .notOneWord ∧
    decodeBytes [0x20, 0x01, 0x00, 0x00, 0x00] = .error .notOneWord := by decide

theorem test_decodeTableWord :
    decodeTableWord 32 0x122 = some (.gfOrder .deg16) ∧ decodeTableWord 8 0x12 = some .final ∧
    decodeTableWord 32 0x33 = none := by decide

/-! ### Small states -/

/-- The polynomials of 95_test_vectors.md and a valid key, nothing in flight. -/
def idle : State :=
  { State.reset with fpoly8 := 0x11B, fpoly16 := 0x1002D, keyValid := true }

/-- `idle` with i in flight and the engine's turn. -/
def inEngine (i : Instr) (s : State) : State := { s with turn := .engine, pending := some i }

/-- `idle` in a session of n blocks under CTRL = c, b of them done. -/
def inSession (c : BitVec 5) (n b : Block) : State :=
  { idle with session := true, ctrl := c, msglen := n, blkidx := b }

/-- What p says of the state an outcome leaves. -/
def leaves (o : Host.Outcome State Fault Refusal) (p : State → Bool) : Bool :=
  match o with
  | .next t => p t
  | .fault _ => false
  | .refused _ => false

/-- 95_test_vectors.md 2.2, key KA: the entries of its S-boxes that the traces of 2.3 look up, in
otherwise zero boxes, with KA's subkeys. -/
def tracedSchedule : KeySchedule :=
  { deriveSchedule 0x000102030405060708090a0b0c0d0e0f Config.keymodDefault with
    sbox1 := (((Vector.replicate 256 0).set 0xf6 0xb7).set 0xcb 0xf1).set 0x3c 0x6c
    sbox2 := (((Vector.replicate 256 0).set 0xd5 0xc0).set 0xe8 0x9b).set 0x1f 0xcd }

/-! ### The functions -/

/-- 95_test_vectors.md 2.1. -/
theorem test_gfMul_vectors :
    gfMul 0x57 0x83 0x11B = 0xc1 ∧ gfMul 0x1ff 0x01 0x11B = 0xe4 ∧
    gfMul 0xffff 0xffff 0x11B = 0x66 ∧ gfMul 0x1234 0x5678 0x1002D = 0x0539 ∧
    gfMul 0xffff 0xffff 0x1002D = 0x5419 ∧ gfMul 0x03 0x55 0x100 = 0xff := by decide +kernel

/-- 95_test_vectors.md 2.1. -/
theorem test_gfInv_vectors :
    gfInv 0x53 0x11B = 0xca ∧ gfInv 0x100 0x11B = 0xcc ∧ gfInv 0x11B 0x11B = 0 ∧
    gfInv 0x0002 0x1002D = 0x8016 ∧ gfInv 0xffff 0x1002D = 0xf969 ∧ gfInv 0x03 0x100 = 0x55 := by
  decide +kernel

/-- 95_test_vectors.md 2.1. -/
theorem test_gfOrder_vectors :
    gfOrder 0x53 0x11B = 85 ∧ gfOrder 0x02 0x11B = 51 ∧ gfOrder 0x1234 0x1002D = 771 ∧
    gfOrder 0x02 0x100 = 0 ∧ gfOrder 0x03 0x100 = 8 := by decide +kernel

/-- 95_test_vectors.md 2.1. -/
theorem test_tmul_vectors :
    tmul 0x0123456789abcdef 0xfedcba9876543210 0x1002D = 0xb336 ∧
    tmul 0x0123456789abcdef 0xfedcba9876543210 0x11B = 0xdf ∧
    tmul 0xffffffffffffffff 0xffffffffffffffff 0x1002D = 0x4c24 := by decide +kernel

/-- 95_test_vectors.md 2.2, key KA. -/
theorem test_subkeys_KA :
    tracedSchedule.kl1[7] = 0x1c1e ∧ tracedSchedule.kl2[0] = 0x8dae ∧
    tracedSchedule.ko1[7] = 0x0020 ∧ tracedSchedule.ko2[3] = 0x0100 ∧
    tracedSchedule.ko3[1] = 0xe1c1 ∧ tracedSchedule.ki1[4] = 0x0122 ∧
    tracedSchedule.ki2[0] = 0xcbe8 ∧ tracedSchedule.ki3[7] = 0x7a59 := by decide +kernel

/-- 95_test_vectors.md 2.3, key KA: FI, FO, FL and F in round 0. -/
theorem test_round_KA :
    fi tracedSchedule 0x1234 0xf6d5 = 0xb34d ∧ fo tracedSchedule 0x01234567 0 = 0x00f77ce7 ∧
    fl tracedSchedule 0x1002D 0x01234567 0 = 0x9659454a ∧
    roundF tracedSchedule 0x1002D 0x01234567 0 = 0x23fe7cca := by decide +kernel

/-- 95_test_vectors.md 2.2, key KA: entries of both S-boxes. -/
theorem test_sboxes_KA :
    let ks := deriveSchedule 0x000102030405060708090a0b0c0d0e0f Config.keymodDefault
    ks.sbox1[0] = 0x91 ∧ ks.sbox1[15] = 0xe3 ∧ ks.sbox1[255] = 0x5b ∧ ks.sbox2[0] = 0x8d ∧
    ks.sbox2[0xd5] = 0xc0 ∧ ks.sbox2[255] = 0xec := by
  rw [deriveSchedule_eq_packed]
  decide +kernel

/-- 95_test_vectors.md 2.4, the last round of KA's trace, forward and back. -/
theorem test_rounds_trace :
    encRound (fun _ _ => 0x39db4d49) (0xbf9a5553, 0x39133804) 7 = (0x00c8754d, 0xbf9a5553) ∧
    decRound (fun _ _ => 0x39db4d49) (0x00c8754d, 0xbf9a5553) 7 = (0xbf9a5553, 0x39133804) := by
  decide

/-- 42_adapter.md R117, R118: "ABC" is one block, padded; the reassembled plaintext is "ABC". -/
theorem test_segment_reassemble :
    segment [0x41, 0x42, 0x43] = [0x4142430000000000] ∧ segment [] = [] ∧
    reassemble [0x4142430000000000] .plaintext = [0x41, 0x42, 0x43] := by decide

/-- 42_adapter.md R126, 95_test_vectors.md P4: SIGLEN is 3 after "ABC"; a zero block changes nothing. -/
theorem test_siglen :
    siglenAfter 0 0 0x4142430000000000 = 3 ∧ siglenAfter 3 1 0 = 3 ∧ siglenAfter 3 1 1 = 16 := by
  decide

/-! ### Host texts and programs -/

/-- 42_adapter.md R129: the IV is required in every mode but ECB, where nothing is written for it. -/
theorem test_parseSessionIv :
    parseSessionIv .cbc none = .error .missingIv ∧ parseSessionIv .gcm none = .error .missingIv ∧
    parseSessionIv .ecb none = .ok none ∧ parseSessionIv .ecb (some "zz".toList) = .error .badDigits ∧
    parseSessionIv .ctr (some "0X1f".toList) = .ok (some 0x1f) ∧
    ivAccesses none = [] ∧ ivAccesses (some 0x0123456789abcdef) =
      [.write 0x30 0b1111 0x89abcdef, .write 0x34 0b1111 0x01234567] := by decide

/-- R129: a key of 33 digits, an empty key, an unknown name and a missing IV reject the request. -/
theorem test_parseRequest :
    parseRequest ⟨"CBC", List.replicate 33 '0', some ['1']⟩ = .error .tooLong ∧
    parseRequest ⟨"CBC", [], some ['1']⟩ = .error .badDigits ∧
    parseRequest ⟨"cbc", ['1'], some ['1']⟩ = .error .unknownMode ∧
    parseRequest ⟨"OFB", ['1'], none⟩ = .error .missingIv ∧
    parseRequest ⟨"ECB", "0x1F".toList, none⟩ = .ok ⟨.ecb, 0x1f, none⟩ := by decide +kernel

/-- R128's example as a received ciphertext: in mode 6 its last block is the tag (R129). -/
theorem test_parseReceived :
    let text := "00112233445566770000000000000001".toList
    ciphertextHex [0x0011223344556677, 1] = text ∧
    parseReceived .cbc text = .ok ([0x0011223344556677, 1], none) ∧
    parseReceived .gcm text = .ok ([0x0011223344556677], some 1) ∧
    parseReceived .gcm [] = .error .badLength ∧ parseReceived .ecb [] = .ok ([], none) ∧
    parseReceived .ecb ['0'] = .error .badLength := by decide +kernel

/-- 42_adapter.md R127 on "ABCDEFGHI", in CTR under IV = 1: two groups, MSGLEN = 2. The
words are those of 30_encoding.md R81, the offsets those of 10_state.md R18. -/
theorem test_encryptProgram :
    let w := fun (off : BitVec 8) (v : Word) => Statement.bus (.write off 0b1111 v)
    let r := fun off : BitVec 8 => Statement.bus (.read off 4)
    encryptProgram ⟨.ctr, .deg16, some 1⟩ [0x41, 0x42, 0x43, 0x44, 0x45, 0x46, 0x47, 0x48, 0x49] =
      [w 0x08 5, w 0x30 1, w 0x34 0, w 0x38 2, w 0x3C 0, w 0x0C 0x10, .wait] ++
      [w 0x80 0x41, w 0x80 0x42, w 0x80 0x43, w 0x80 0x44, w 0x80 0x45, w 0x80 0x46, w 0x80 0x47,
        w 0x80 0x48, w 0x0C 0x30, .wait, w 0x0C 0x11, .wait, r 0x48, r 0x4C] ++
      [w 0x80 0x49, w 0x0C 0x30, .wait, w 0x0C 0x11, .wait, r 0x48, r 0x4C] ++
      [w 0x0C 0x12, .wait] := by decide

/-- 95_test_vectors.md P4's decrypt session, and what the host keeps of its reads: "ABC". SIGLEN is read
after FINAL (R127); it is the same before. -/
theorem test_decryptProgram :
    let w := fun (off : BitVec 8) (v : Word) => Statement.bus (.write off 0b1111 v)
    let r := fun off : BitVec 8 => Statement.bus (.read off 4)
    decryptProgram ⟨.ecb, .deg16, none⟩ [0x968ffacc7082d58e] none =
      [w 0x08 8, w 0x38 1, w 0x3C 0, w 0x0C 0x10, .wait, w 0x40 0x7082d58e, w 0x44 0x968ffacc,
        w 0x0C 0x11, .wait] ++ List.replicate 8 (r 0x84) ++
      [w 0x0C 0x12, .wait, r 0x58, r 0x5C] ∧
    plaintextOf [⟨0x04, 6⟩, ⟨0x04, 0xe⟩, ⟨0x84, 0x41⟩, ⟨0x84, 0x42⟩, ⟨0x84, 0x43⟩, ⟨0x84, 0⟩, ⟨0x84, 0⟩,
      ⟨0x84, 0⟩, ⟨0x84, 0⟩, ⟨0x84, 0⟩, ⟨0x04, 0x8002⟩, ⟨0x58, 3⟩, ⟨0x5C, 0⟩] = [0x41, 0x42, 0x43] := by
  decide

/-- 43_modes.md R134, 95_test_vectors.md P3: in mode 6 the tag goes to DIN before FINAL and is not counted
in MSGLEN; the verdict is read from STATUS. With TAGFSEL = 1 and DIR = 1 CTRL is 0x1E. -/
theorem test_decryptProgram_tag :
    let w := fun (off : BitVec 8) (v : Word) => Statement.bus (.write off 0b1111 v)
    let r := fun off : BitVec 8 => Statement.bus (.read off 4)
    decryptProgram ⟨.gcm, .deg8, some 1⟩ [] (some 0x2e4873087f568ce0) =
      [w 0x08 0x1E, w 0x30 1, w 0x34 0, w 0x38 0, w 0x3C 0, w 0x0C 0x10, .wait, w 0x40 0x7f568ce0,
        w 0x44 0x2e487308, w 0x0C 0x12, .wait, r 0x58, r 0x5C, r 0x04] ∧
    verdictTrusted [⟨0x04, 0x32⟩] = true ∧ verdictTrusted [⟨0x04, 0x32⟩, ⟨0x04, 0x12⟩] = false := by
  decide

/-- 30_encoding.md R86: WAIT reads STATUS and repeats while bit 0 of the result is 1, whatever the other
bits are. With no command in flight its one read ends it; WAITDONE then reads ERRCODE. -/
theorem test_wait :
    Statement.wait.access = .read 0x04 4 ∧
    Statement.wait.leftAfter { idle with rdata := 1 } = [.wait] ∧
    Statement.wait.leftAfter { idle with rdata := 0xFFFFFFFE } = [] ∧
    (runProgram [.host] waitDone idle).map (fun r => (r.seen, r.left)) =
      some ([⟨0x04, 2⟩], [.bus (.read 0x10 4)]) := by decide

/-- R86: `WR64` names IV, MSGLEN and DIN. -/
theorem test_wr64 : ([.iv, .msglen, .din] : List WritablePair).map (fun p => wr64 p (1 <<< 32)) =
    [[wr .ivLo 0, wr .ivHi 1], [wr .msglenLo 0, wr .msglenHi 1], [wr .dinLo 0, wr .dinHi 1]] := by decide

/-! ### One step of each command -/

/-- R154: NOP sets DONE, and the next CMD word is the one the host writes. -/
theorem test_step_nop :
    leaves (step (idle.withFetchWord 32 0x00000000)) (fun t =>
      t.irqStat == 0b001 && t.pending == none) = true := by decide

/-- R155: SOFT_RESET while a command is in flight: DONE stays 0. -/
theorem test_step_softReset :
    leaves (step ((inEngine .process (inSession 1 1 0)).withFetchWord 32 0x000000FF)) (fun t =>
      t.irqStat == 0 && t.pending == none && t.session == false && t.fpoly16 == 0) = true := by decide

/-- 95_test_vectors.md 2.2: KEY_LOAD does not check FPOLY16. -/
theorem test_step_keyLoad :
    leaves (step (State.reset.withFetchWord 32 0x00000001)) (fun t =>
      t.keyValid && t.irqStat == 0b001 && t.keys.ki2[0] == 0xcdef) = true := by decide +kernel

/-- 95_test_vectors.md 2.2: KEY_LOAD in a session is SEQ. -/
theorem test_step_keyLoad_in_session :
    leaves (step ((inSession 0 1 0).withFetchWord 32 0x00000001)) (fun t =>
      t.errcode == .seq && t.irqStat == 0b010) = true := by decide

/-- 95_test_vectors.md P5: without a key ENC_BLOCK reports NOKEY, not BADFIELD. -/
theorem test_step_encBlock_nokey :
    leaves (step (State.reset.withFetchWord 32 0x00000002)) (fun t =>
      t.errcode == .nokey && t.pending == none) = true := by decide

/-- 95_test_vectors.md 1.1, P1: the source's scenario. -/
theorem test_step_encBlock :
    leaves (step ({ idle with
        keys := deriveSchedule 0x000102030405060708090a0b0c0d0e0f Config.keymodDefault
        din := 0x0011223344556677 }.withFetchWord 32 0x02)) (fun t =>
      t.dout == 0x00c8754dbf9a5553) = true := by
  rw [deriveSchedule_eq_packed]
  decide +kernel

/-- 95_test_vectors.md 1.1, P1: and back. -/
theorem test_step_decBlock :
    leaves (step ({ idle with
        keys := deriveSchedule 0x000102030405060708090a0b0c0d0e0f Config.keymodDefault
        din := 0x00c8754dbf9a5553 }.withFetchWord 32 0x03)) (fun t =>
      t.dout == 0x0011223344556677) = true := by
  rw [deriveSchedule_eq_packed]
  decide +kernel

/-- 95_test_vectors.md 2.2: with a key and FPOLY16 = 0, DEC_BLOCK reports BADFIELD. -/
theorem test_step_decBlock_badfield :
    leaves (step ({ idle with fpoly16 := 0 }.withFetchWord 32 0x00000003)) (fun t =>
      t.errcode == .badfield) = true := by decide

/-- R132: START takes CHAIN from IV and zeroes BLKIDX and SIGLEN. -/
theorem test_step_start :
    leaves (step ({ idle with ctrl := 1, iv := 9, blkidx := 5, siglen := 7 }.withFetchWord 32 0x10))
      (fun t => t.session && t.chain == 9 && t.blkidx == 0 && t.siglen == 0 && t.irqStat == 1) = true := by
  decide

/-- R132: MODE = 7 is BADMODE. -/
theorem test_step_start_badmode :
    leaves (step ({ idle with ctrl := 7 }.withFetchWord 32 0x10)) (fun t =>
      t.errcode == .badmode && t.session == false) = true := by decide

/-- 95_test_vectors.md P2: PROCESS past the last block is SEQ. -/
theorem test_step_process_seq :
    leaves (step ((inSession 1 2 2).withFetchWord 32 0x11)) (fun t =>
      t.errcode == .seq && t.blkidx == 2) = true := by decide

/-- 95_test_vectors.md P2: the first block of its CBC session. -/
theorem test_step_process_cbc :
    leaves (step ({ inSession 1 2 0 with
        keys := deriveSchedule 0x000102030405060708090a0b0c0d0e0f Config.keymodDefault
        chain := 1, din := 0x0011223344556677, rsmIdx := 8 }.withFetchWord 32 0x11)) (fun t =>
      t.dout == 0x483429387778476e && t.chain == 0x483429387778476e && t.blkidx == 1 &&
        t.siglen == 8 && t.rsmIdx == 0 && t.session) = true := by
  rw [deriveSchedule_eq_packed]
  decide +kernel

/-- R134: FINAL outside mode 6 closes the session and leaves DOUT. -/
theorem test_step_final :
    leaves (step ({ inSession 1 2 2 with dout := 5 }.withFetchWord 32 0x12)) (fun t =>
      t.session == false && t.dout == 5 && t.authValid == false) = true := by decide

/-- R134, R167: a wrong tag: AUTH_VALID, AUTH_OK = 0, AUTHFAIL with DONE, and no error. With TAGACC = 0
and MSGLEN = 0 the tag is ZBLK. -/
theorem test_step_final_mismatch :
    leaves (step ({ inSession 0b01110 0 0 with zblk := 6, din := 7 }.withFetchWord 32 0x12)) (fun t =>
      t.authValid && t.authOk == false && t.irqStat == 0b101 && t.errcode == .none) = true := by
  decide +kernel

/-- R135: ABORT closes a session; outside one it only completes. -/
theorem test_step_abort :
    leaves (step ((inSession 1 2 1).withFetchWord 32 0x13)) (fun t =>
      t.session == false && t.blkidx == 1 && t.irqStat == 1) = true := by decide

/-- 95_test_vectors.md 2.1: GF_MUL.16. -/
theorem test_step_gfMul16 :
    leaves (step ({ idle with gfA := 0x1234, gfB := 0x5678, inv0 := true }.withFetchWord 32 0x120))
      (fun t => t.gfR == 0x0539 && t.inv0) = true := by decide +kernel

/-- 95_test_vectors.md P5: GF_MUL with FPOLY8 = 0. -/
theorem test_step_gfMul_badfield :
    leaves (step ({ State.reset with gfA := 0x57, gfB := 0x83 }.withFetchWord 32 0x20)) (fun t =>
      t.errcode == .badfield && t.irqStat == 0b010 && t.gfR == 0) = true := by decide

/-- 95_test_vectors.md 2.1: 0x11B reduces to 0, so INV0 is set. -/
theorem test_step_gfInv_zero :
    leaves (step ({ idle with gfA := 0x11B, gfR := 3 }.withFetchWord 32 0x21)) (fun t =>
      t.gfR == 0 && t.inv0) = true := by decide +kernel

/-- 95_test_vectors.md P5. -/
theorem test_step_gfInv :
    leaves (step ({ idle with gfA := 0x57, inv0 := true }.withFetchWord 32 0x21)) (fun t =>
      t.gfR == 0xbf && t.inv0 == false) = true := by decide +kernel

/-- 95_test_vectors.md P5: 3 is a generator mod 0x11B. -/
theorem test_step_gfOrder :
    leaves (step ({ idle with gfA := 3 }.withFetchWord 32 0x22)) (fun t =>
      t.gfR == 0xff && t.inv0 == false) = true := by decide +kernel

/-- 95_test_vectors.md P4: SEG_POP after "ABC". -/
theorem test_step_segPop :
    leaves (step ({ idle with segbuf := 0x4142430000000000, segCnt := 3 }.withFetchWord 32 0x30))
      (fun t => t.din == 0x4142430000000000 && t.segCnt == 0 && t.segbuf == 0) = true := by decide

/-- R121: SEG_POP of an empty segmenter is SEQ. -/
theorem test_step_segPop_empty :
    leaves (step ({ idle with din := 4 }.withFetchWord 32 0x30)) (fun t =>
      t.errcode == .seq && t.din == 4) = true := by decide

/-- R122: SEG_CLEAR leaves DIN. -/
theorem test_step_segClear :
    leaves (step ({ idle with segbuf := 1 <<< 56, segCnt := 1, din := 4 }.withFetchWord 32 0x31))
      (fun t => t.segbuf == 0 && t.segCnt == 0 && t.din == 4) = true := by decide

/-- R125: RSM_REWIND. -/
theorem test_step_rsmRewind :
    leaves (step ({ idle with rsmIdx := 8 }.withFetchWord 32 0x32)) (fun t => t.rsmIdx == 0) = true := by
  decide

/-- R165: an ILLEGAL word is BADCMD, and BUSY while a command is in flight. -/
theorem test_step_illegal :
    leaves (step (idle.withFetchWord 32 0x302)) (fun t => t.errcode == .badcmd) = true ∧
    leaves (step ((inEngine .nop idle).withFetchWord 32 0x302)) (fun t => t.errcode == .busy) = true := by
  decide

/-- R164, R166: a command accepted in the host's turn is in flight until the engine's move. -/
theorem test_step_issue_then_complete :
    leaves (step { idle with inputs := [.host (cmd .nop), .engine] }) (fun t =>
      t.pending == some .nop && t.irqStat == 0 &&
        leaves (step t) (fun u => u.pending == none && u.irqStat == 1)) = true := by decide

/-- R62, R123: bytes in and out; position 0 is the most significant. -/
theorem test_bytes :
    leaves (step { idle with inputs := [.host (wr .byteIn 0x141)] }) (fun t =>
      t.segbuf == 0x4100000000000000 && t.segCnt == 1) = true ∧
    leaves (step { idle with dout := 0x4142430000000000, rsmIdx := 1, inputs := [.host (rd .byteOut)] })
      (fun t => t.rdata == 0x42 && t.rsmIdx == 2) = true := by decide

/-- R26, 95_test_vectors.md P4: STATUS after the ninth BYTE_OUT read. -/
theorem test_status :
    leaves (step { inSession 0b01000 1 1 with rsmIdx := 8, inputs := [.host (rd .status)] })
      (fun t => t.rdata == 0x0000800e) = true := by decide

/-- R32, 95_test_vectors.md 2.2: writing a key word clears KEY_VALID. -/
theorem test_key_write :
    leaves (step { idle with inputs := [.host (wr .key0 0)] }) (fun t => t.keyValid == false) = true := by
  decide

/-! ### Witnesses: encoding -/

theorem witness_DecodeEncodeAgree : decode 0x00000122 = .ok (.gfOrder .deg16) := by decide

/-- For each opcode of format C, a word with it that is not its legal word. -/
theorem witness_OnlyWord :
    ([(0x80000000, 0), (0x101, 1), (0x202, 2), (0x103, 3), (0x110, 0x10), (0x211, 0x11), (0x112, 0x12),
        (0x113, 0x13), (0x130, 0x30), (0x231, 0x31), (0x132, 0x32), (0x1FF, 0xFF)] :
        List (Word × Word)).all (fun p =>
      p.1.extractLsb' 0 8 == p.2.extractLsb' 0 8 && p.1 != p.2) = true := by decide

/-- For each opcode of format G, a word with it that is neither of its legal words. -/
theorem witness_FieldWords :
    ([(0x220, 0x20), (0x80000121, 0x21), (0x322, 0x22)] : List (Word × Word)).all (fun p =>
      p.1.extractLsb' 0 8 == p.2.extractLsb' 0 8 && p.1 != p.2 && p.1 != p.2 + 0x100) = true := by
  decide

theorem witness_StepRunsDecodedCommand :
    decode 0x00000011 = .ok .process ∧ (inEngine .process idle).pending = some .process := by decide

theorem witness_IllegalWordRejected :
    decode 0x00000302 = .error .reservedBits ∧ idle.pending = none ∧
    (inEngine .nop idle).pending ≠ none ∧
    (0x100000FF : Word).extractLsb' 0 8 = 0xFF ∧ (0x100000FF : Word) ≠ 0xFF ∧
    (let s : State := { idle with ctrl := 7 };
      Issuing s ∧ s.session = false ∧ s.keyValid = true ∧ s.fpoly16.getLsbD 16 = true ∧
        s.ctrl.extractLsb' 0 3 = 7) := by decide

/-! ### Witnesses: issue and completion -/

/-- While i is in flight the host is turned away, whichever command it issues. -/
theorem witness_TurnedAwayWhileBusy :
    { inEngine .abort idle with turn := .host }.turn ≠ .engine ∧
    { inEngine .abort idle with turn := .host }.pending ≠ none := by decide

/-- `idle` passes the checks of every command that runs outside a session and reads no segmenter. -/
theorem idle_admits :
    Admissible .nop idle ∧ Admissible .keyLoad idle ∧ Admissible .encBlock idle ∧
    Admissible .decBlock idle ∧ Admissible .start idle ∧ Admissible .abort idle ∧
    (∀ f, Admissible (.gfMul f) idle ∧ Admissible (.gfInv f) idle ∧ Admissible (.gfOrder f) idle) ∧
    Admissible .segClear idle ∧ Admissible .rsmRewind idle := by
  refine ⟨trivial, rfl, ⟨rfl, rfl, rfl⟩, ⟨rfl, rfl, rfl⟩, ⟨rfl, rfl, rfl, by decide, by decide⟩,
    trivial, fun f => ?_, trivial, trivial⟩
  cases f <;> exact ⟨rfl, rfl, rfl⟩

theorem witness_AcceptedCommandIsInFlight :
    ({ idle with turn := .host }.turn = .host ∧ { idle with turn := .host }.pending = none) ∧
    Admissible .keyLoad { idle with turn := .host } ∧
    Admissible .process { inSession 1 1 0 with turn := .host } ∧
    Admissible .final { inSession 1 1 1 with turn := .host } ∧
    Admissible .segPop { idle with turn := .host, segCnt := 1 } :=
  ⟨by decide, rfl, ⟨rfl, by decide⟩, ⟨rfl, rfl⟩, by show (1 : Fin 9) ≠ 0; decide⟩

/-- A failure with each code: SEQ, NOKEY, BADFIELD, BADMODE. -/
theorem witness_InadmissibleCommandRejected :
    Issuing idle ∧ ¬ Admissible .final idle ∧ ¬ Admissible .encBlock State.reset ∧
    ¬ Admissible (.gfMul .deg8) State.reset ∧ ¬ Admissible .start { idle with ctrl := 7 } :=
  ⟨by decide, fun h => (by cases h.1), fun h => (by cases h.2.1), fun h => (by cases h),
    fun h => h.2.2.2.2 (by decide)⟩

/-! ### Witnesses: the commands. Each is met in the engine's turn and in the prompt turn. -/

theorem witness_NopOnlyCompletes :
    ({ idle with turn := .host }.turn = .host ∧ { idle with turn := .host }.pending = none) ∧
    Completing (inEngine .nop idle) True ∧ Completing idle True := by decide

theorem witness_KeyLoadHoldsSchedule :
    Completing (inEngine .keyLoad idle) ((inEngine .keyLoad idle).session = false) ∧
    Completing idle (idle.session = false) ∧
    Issuing (inSession 1 1 0) ∧ (inSession 1 1 0).session = true := by decide

/-- ENC_BLOCK's clauses and DEC_BLOCK's have the same hypotheses. -/
theorem witness_EncBlockEnciphersDin_DecBlockDeciphersDin :
    Completing (inEngine .encBlock idle) False ∧ Completing (inEngine .decBlock idle) False ∧
    Completing idle
      (idle.session = false ∧ idle.keyValid = true ∧ idle.fpoly16.getLsbD 16 = true) ∧
    (Issuing (inSession 1 1 0) ∧ (inSession 1 1 0).session = true) ∧
    (Issuing State.reset ∧ State.reset.session = false ∧ State.reset.keyValid = false) ∧
    (Issuing { idle with fpoly16 := 0xFFFF } ∧ { idle with fpoly16 := 0xFFFF }.session = false ∧
      { idle with fpoly16 := 0xFFFF }.keyValid = true ∧
      { idle with fpoly16 := 0xFFFF }.fpoly16.getLsbD 16 = false) := by decide

/-- START's checks pass outside mode 6, and in mode 6 under either tag field. -/
theorem witness_StartOpensSession_admitted :
    Completing (inEngine .start idle) False ∧
    (Completing idle (Admissible .start idle) ∧ idle.ctrl.extractLsb' 0 3 ≠ 6) ∧
    (Completing { idle with ctrl := 0b00110 } (Admissible .start { idle with ctrl := 0b00110 }) ∧
      { idle with ctrl := 0b00110 }.ctrl.extractLsb' 0 3 = 6) ∧
    (Completing { idle with ctrl := 0b11110 } (Admissible .start { idle with ctrl := 0b11110 }) ∧
      { idle with ctrl := 0b11110 }.ctrl.extractLsb' 0 3 = 6) :=
  ⟨.inl rfl, ⟨.inr ⟨rfl, rfl, rfl, rfl, rfl, by decide, by decide⟩, by decide⟩,
    ⟨.inr ⟨rfl, rfl, rfl, rfl, rfl, by decide, by decide⟩, by decide⟩,
    ⟨.inr ⟨rfl, rfl, rfl, rfl, rfl, by decide, by decide⟩, by decide⟩⟩

theorem witness_StartOpensSession_rejected :
    (Issuing (inSession 1 1 0) ∧ (inSession 1 1 0).session = true) ∧
    (Issuing State.reset ∧ State.reset.session = false ∧ State.reset.keyValid = false) ∧
    (let s : State := { idle with fpoly16 := 0 };
      Issuing s ∧ s.session = false ∧ s.keyValid = true ∧ s.fpoly16.getLsbD 16 = false) ∧
    (let s : State := { idle with ctrl := 0b10110, fpoly8 := 0xFF };
      Issuing s ∧ s.session = false ∧ s.keyValid = true ∧
        (s.ctrl.extractLsb' 0 3 = 6 ∧ s.ctrl.getLsbD 4 = true ∧ s.fpoly8.getLsbD 8 = false)) ∧
    (let s : State := { idle with ctrl := 7 };
      Issuing s ∧ s.session = false ∧ s.keyValid = true ∧ s.fpoly16.getLsbD 16 = true ∧
        s.ctrl.extractLsb' 0 3 = 7) := by decide

theorem witness_ProcessTransformsBlock :
    (Completing (inEngine .process (inSession 1 1 0)) False ∧
      (inEngine .process (inSession 1 1 0)).ctrl.extractLsb' 0 3 ≠ 7) ∧
    (Completing (inSession 6 1 0)
        ((inSession 6 1 0).session = true ∧ (inSession 6 1 0).blkidx ≠ (inSession 6 1 0).msglen) ∧
      (inSession 6 1 0).ctrl.extractLsb' 0 3 ≠ 7) ∧
    (Issuing idle ∧ idle.session = false) ∧
    (Issuing (inSession 1 1 1) ∧ (inSession 1 1 1).blkidx = (inSession 1 1 1).msglen) := by decide

/-- Each mode, in each direction, and both polynomials valid. -/
theorem witness_StepOfEachMode :
    (inSession 0b00000 1 0).ctrl.extractLsb' 0 3 = 0 ∧
    (inSession 0b00001 1 0).ctrl.extractLsb' 0 3 = 1 ∧ (inSession 0b00001 1 0).ctrl.getLsbD 3 = false ∧
    (inSession 0b01001 1 0).ctrl.extractLsb' 0 3 = 1 ∧ (inSession 0b01001 1 0).ctrl.getLsbD 3 = true ∧
    (inSession 0b00010 1 0).ctrl.extractLsb' 0 3 = 2 ∧ (inSession 0b00010 1 0).ctrl.getLsbD 3 = false ∧
    (inSession 0b01010 1 0).ctrl.extractLsb' 0 3 = 2 ∧ (inSession 0b01010 1 0).ctrl.getLsbD 3 = true ∧
    (inSession 0b00011 1 0).ctrl.extractLsb' 0 3 = 3 ∧ (inSession 0b00011 1 0).ctrl.getLsbD 3 = false ∧
    (inSession 0b01011 1 0).ctrl.extractLsb' 0 3 = 3 ∧ (inSession 0b01011 1 0).ctrl.getLsbD 3 = true ∧
    (inSession 0b00100 1 0).ctrl.extractLsb' 0 3 = 4 ∧
    (inSession 0b00101 1 0).ctrl.extractLsb' 0 3 = 5 ∧
    (inSession 0b00110 1 0).ctrl.extractLsb' 0 3 = 6 ∧ (inSession 0b00110 1 0).ctrl.getLsbD 3 = false ∧
    (inSession 0b11110 1 0).ctrl.extractLsb' 0 3 = 6 ∧
      (inSession 0b11110 1 0).ctrl.getLsbD 3 = true ∧
    (inSession 0b00110 1 0).ctrl.getLsbD 4 = false ∧ (inSession 0b00110 1 0).fpoly16.getLsbD 16 = true ∧
    (inSession 0b11110 1 0).ctrl.getLsbD 4 = true ∧
      (inSession 0b11110 1 0).fpoly8.getLsbD 8 = true := by decide

/-- FINAL outside mode 6, in mode 6 encrypting, and its rejections. -/
theorem witness_FinalClosesSession :
    (Completing (inEngine .final (inSession 1 1 1)) False ∧
      (inEngine .final (inSession 1 1 1)).ctrl.extractLsb' 0 3 ≠ 6) ∧
    (Completing (inSession 1 1 1)
        ((inSession 1 1 1).session = true ∧ (inSession 1 1 1).blkidx = (inSession 1 1 1).msglen) ∧
      (inSession 1 1 1).ctrl.extractLsb' 0 3 ≠ 6) ∧
    (Completing (inSession 0b00110 0 0)
        ((inSession 0b00110 0 0).session = true ∧
          (inSession 0b00110 0 0).blkidx = (inSession 0b00110 0 0).msglen) ∧
      (inSession 0b00110 0 0).ctrl.extractLsb' 0 3 = 6 ∧
      (inSession 0b00110 0 0).ctrl.getLsbD 3 = false) ∧
    (Issuing idle ∧ idle.session = false) ∧
    (Issuing (inSession 1 1 0) ∧ (inSession 1 1 0).blkidx ≠ (inSession 1 1 0).msglen) ∧
    idle.fpoly16.getLsbD 16 = true ∧
    (idle.ctrl.getLsbD 4 = true → idle.fpoly8.getLsbD 8 = true) := by decide

/-- FINAL in mode 6 decrypting: with TAGACC = 0 and MSGLEN = 0 the tag is ZBLK, here 6; DIN is 6 in the
first state and 7 in the second. -/
theorem witness_FinalClosesSession_tag :
    (let s : State := { inSession 0b01110 0 0 with zblk := 6, din := 6 };
      Completing s (s.session = true ∧ s.blkidx = s.msglen) ∧ s.ctrl.extractLsb' 0 3 = 6 ∧
        s.ctrl.getLsbD 3 = true ∧
        tmul (s.tagacc ^^^ s.msglen) s.hsub s.fpoly16.toNat ^^^ s.zblk = s.din) ∧
    (let s : State := { inSession 0b01110 0 0 with zblk := 6, din := 7 };
      Completing s (s.session = true ∧ s.blkidx = s.msglen) ∧ s.ctrl.extractLsb' 0 3 = 6 ∧
        s.ctrl.getLsbD 3 = true ∧
        tmul (s.tagacc ^^^ s.msglen) s.hsub s.fpoly16.toNat ^^^ s.zblk ≠ s.din) := by decide +kernel

theorem witness_AbortDropsSession :
    Completing (inEngine .abort (inSession 1 1 0)) True ∧ Completing (inSession 1 1 0) True := by decide

/-- GF_MUL, GF_INV and GF_ORDER: either polynomial valid, and neither. -/
theorem witness_GfMulMultiplies_GfInvInverts_GfOrderFindsOrder :
    Completing (inEngine (.gfMul .deg8) idle) False ∧ Completing (inEngine (.gfInv .deg8) idle) False ∧
    Completing (inEngine (.gfOrder .deg16) idle) False ∧
    Completing idle (idle.fpoly8.getLsbD 8 = true) ∧ idle.fpoly8.getLsbD 8 = true ∧
    Completing idle (idle.fpoly16.getLsbD 16 = true) ∧ idle.fpoly16.getLsbD 16 = true ∧
    (Issuing { idle with fpoly8 := 0xFF } ∧
      { idle with fpoly8 := 0xFF }.fpoly8.getLsbD 8 = false) ∧
    (Issuing { idle with fpoly16 := 0xFFFF } ∧
      { idle with fpoly16 := 0xFFFF }.fpoly16.getLsbD 16 = false) := by decide

theorem witness_SegPopMovesBlock :
    Completing (inEngine .segPop idle) False ∧
    Completing { idle with segCnt := 1 } ({ idle with segCnt := 1 }.segCnt ≠ 0) ∧
    Completing { idle with segCnt := 8 } ({ idle with segCnt := 8 }.segCnt ≠ 0) ∧
    Issuing idle ∧ idle.segCnt = 0 := by decide

/-- A segmenter with one byte, and a full one, zero from SEG_CNT on. -/
theorem witness_SegPopMovesBlock_padded :
    (let s : State := { idle with segCnt := 1, segbuf := 0x4100000000000000 };
      Completing s (s.segCnt ≠ 0) ∧ SegmenterPadded s ∧ s.segCnt.val ≤ 7) ∧
    (let s : State := { idle with segCnt := 8, segbuf := 0x4142434445464748 };
      Completing s (s.segCnt ≠ 0) ∧ SegmenterPadded s) := by
  have h1 : ∀ j : Fin 8, 1 ≤ j.val → blockByte 0x4100000000000000 j.val = 0 := by decide
  exact ⟨⟨by decide, fun j hj h8 => h1 ⟨j, h8⟩ hj, by decide⟩, by decide, fun j hj h8 => by
    have : (8 : Nat) ≤ j := hj
    omega⟩

theorem witness_SegClearEmptiesSegmenter :
    Completing (inEngine .segClear idle) True ∧ Completing { idle with segCnt := 8 } True := by decide

theorem witness_RsmRewindRestarts :
    Completing (inEngine .rsmRewind idle) True ∧ Completing { idle with rsmIdx := 8 } True := by decide

/-! ### Witnesses: the bus -/

/-- Widths 0, 3 and 5 and offsets 0x01, 0x03 and 0xFF for each kind of access. -/
theorem witness_MisalignedAccessRejected :
    ((0 : Nat) ≠ 4 ∧ (3 : Nat) ≠ 4 ∧ (5 : Nat) ≠ 4) ∧ (0b0111 : BitVec 4) ≠ 0b1111 ∧
    (0x01 : BitVec 8).toNat % 4 ≠ 0 ∧ (0x03 : BitVec 8).toNat % 4 ≠ 0 ∧
    (0xFF : BitVec 8).toNat % 4 ≠ 0 := by decide

theorem witness_ReservedOffsetsReadZero :
    ∀ off ∈ ([0x1C, 0x7C, 0x98, 0xFC] : List (BitVec 8)),
      off.toNat % 4 = 0 ∧ (off = 0x1C ∨ off = 0x7C ∨ 0x98 ≤ off.toNat) := by decide

theorem witness_ReadOnlyAndWriteOnly :
    (0x94 : BitVec 8) ∈
      ([0x00, 0x04, 0x48, 0x4C, 0x50, 0x54, 0x58, 0x5C, 0x78, 0x84, 0x8C, 0x94] : List (BitVec 8)) ∧
    (0x80 : BitVec 8) ∈ ([0x0C, 0x80] : List (BitVec 8)) := by decide

theorem witness_LockedWriteRejected :
    (inSession 1 1 0).session = true ∧ (inSession 1 1 0).pending = none ∧
    (0x6C : BitVec 8) ∈
      ([0x08, 0x20, 0x24, 0x28, 0x2C, 0x30, 0x34, 0x38, 0x3C, 0x60, 0x64, 0x68, 0x6C] :
        List (BitVec 8)) := by decide

/-- Every code of ERRCODE, with a command in flight and with none. -/
theorem witness_ReadsReturnRegisters_ReadsWhileBusy_errcode :
    ([.none, .align, .badcmd, .busy, .seq, .nokey, .badfield, .badmode, .locked, .segfull] :
      List ErrCode).all (fun c =>
        { idle with errcode := c }.errcode == c && { idle with errcode := c }.pending == none &&
        { inEngine .nop idle with errcode := c }.errcode == c &&
        { inEngine .nop idle with errcode := c }.pending != none) = true := by decide

/-- A state with a command in flight, in a session and outside one. -/
theorem witness_WritesWhileBusy_ReadsWhileBusy :
    (inEngine .nop idle).pending ≠ none ∧ (inEngine .process (inSession 1 1 0)).pending ≠ none ∧
    (0x1FF : Word) ≠ 0xFF := by decide

/-- A state with none in flight, in a session and outside one. -/
theorem witness_AcceptedWritesStore_KeyWriteClearsKeyValid_ReadsReturnRegisters :
    idle.pending = none ∧ idle.session = false ∧ (inSession 1 1 0).pending = none := by decide

theorem witness_ByteInAppends :
    idle.pending = none ∧ idle.segCnt.val < 8 ∧ { idle with segCnt := 7 }.segCnt.val < 8 ∧
    { idle with segCnt := 8 }.segCnt.val = 8 ∧ (inEngine .nop idle).pending ≠ none := by decide

theorem witness_ByteOutAdvances :
    idle.pending = none ∧ idle.rsmIdx.val < 8 ∧ { idle with rsmIdx := 7 }.rsmIdx.val < 8 ∧
    { idle with rsmIdx := 8 }.rsmIdx.val = 8 ∧ (inEngine .nop idle).pending ≠ none := by decide

/-- Every kind of subkey in round 7, both boxes at entry 255, and no valid key. -/
theorem witness_DebugWindowsRead :
    idle.pending = none ∧ idle.keyValid = true ∧ State.reset.keyValid = false ∧
    (∀ k : BitVec 3,
      { idle with ksidx := k ++ 7#3 }.ksidx.extractLsb' 3 3 = k ∧
      { idle with ksidx := k ++ 7#3 }.ksidx.extractLsb' 0 3 = BitVec.ofNat 3 (7 : Fin 8).val) ∧
    { idle with sboxIdx := 0x0FF }.sboxIdx.extractLsb' 0 8 = BitVec.ofNat 8 (255 : Fin 256).val ∧
    { idle with sboxIdx := 0x0FF }.sboxIdx.getLsbD 8 = false ∧
    { idle with sboxIdx := 0x1FF }.sboxIdx.extractLsb' 0 8 = BitVec.ofNat 8 (255 : Fin 256).val ∧
    { idle with sboxIdx := 0x1FF }.sboxIdx.getLsbD 8 = true := by decide

theorem witness_ReadsChangeNothing_ResetReadsZero :
    (0xFC : BitVec 8).toNat % 4 = 0 ∧ (0xFC : BitVec 8) ≠ 0x84 ∧
    (0xFC : BitVec 8) ∉ ([0x00, 0x84, 0x8C, 0x94] : List (BitVec 8)) := by decide

/-! ### Witnesses: the field engine -/

theorem witness_ClmulIsCarryless :
    (0x57 : Nat) ≠ 0 ∧ (1 : Nat) ≠ 0 ∧ (0x57 : Nat) < 2 ^ 7 ∧ (1 : Nat) < 2 ^ 1 := by decide

theorem witness_PmodIsRemainder_GfMulReducesOperands_GfPowRecursion :
    1 ≤ deg 0x1002D ∧ 1 ≤ deg 2 := by decide

/-- x has no factors but 1 and itself. -/
theorem two_irreducible (x y : Nat) (h : clmul x y = 2) : x = 1 ∨ y = 1 := by
  have one_of_deg : ∀ z : Nat, z ≠ 0 → deg z = 0 → z = 1 := fun z hz hd => by
    have := (Nat.log2_lt (k := 1) hz).1 (by unfold deg at hd; omega)
    omega
  by_cases hx : x = 0
  · subst hx
    have hb : ∀ k, clmulBelow 0 y k = 0 := fun k => by
      induction k with
      | zero => rfl
      | succ k ih => simp [clmulBelow, ih]
    simp [clmul, hb] at h
  by_cases hy : y = 0
  · subst hy; simp [clmul, clmulBelow] at h
  have ht := clmul_testBit_deg hx hy
  rw [h] at ht
  have hs : deg x + deg y = 1 := by
    rw [show (2 : Nat) = 2 ^ 1 from rfl, Nat.testBit_two_pow] at ht
    simpa [eq_comm] using ht
  rcases Nat.eq_zero_or_pos (deg x) with hd | hd
  · exact .inl (one_of_deg x hx hd)
  · exact .inr (one_of_deg y hy (by omega))

theorem witness_GfInvIsInverse :
    (1 ≤ deg 2 ∧ (∀ x y : Nat, clmul x y = 2 → x = 1 ∨ y = 1) ∧ pmod 3 2 ≠ 0) ∧
    (2 ≤ deg 4 ∧ pmod 4 4 = 0) ∧ 2 ≤ deg 0x1002D ∧ pmod 0 0x1002D = 0 :=
  ⟨⟨by decide, two_irreducible, by decide⟩, by decide +kernel⟩

/-- An operand that reduces to 0, one with an order and one with none (95_test_vectors.md 2.1). -/
theorem witness_GfOrderIsLeast :
    1 ≤ deg 0x100 ∧ pmod 0x100 0x100 = 0 ∧ (pmod 3 0x100 ≠ 0 ∧ gfOrder 3 0x100 ≠ 0) ∧
    (pmod 2 0x100 ≠ 0 ∧ gfOrder 2 0x100 = 0) := by decide +kernel

/-! ### Witnesses: sessions and invariants -/

/-- An authenticated session of one block with PROCESS in flight. Its schedule, HSUB and ZBLK are those
of the zero key. -/
def running : State :=
  { State.reset with
    ctrl := 0b00110, fpoly16 := 0x1002D, msglen := 1, keyValid := true, session := true,
    segCnt := 1, segbuf := 0x4100000000000000, pending := some .process,
    keys := deriveSchedule 0 Config.keymodDefault
    hsub := encryptBlock (deriveSchedule 0 Config.keymodDefault) 0x1002D 0
    zblk := encryptBlock (deriveSchedule 0 Config.keymodDefault) 0x1002D 0 }

theorem running_inv : Inv running where
  segmenter := by
    have h : ∀ j : Fin 8, 1 ≤ j.val → blockByte 0x4100000000000000 j.val = 0 := by decide
    exact fun j h1 h2 => h ⟨j, h2⟩ h1
  schedule := fun _ => rfl
  pending := fun i hi => by
    cases hi
    exact ⟨by decide, rfl, by show (0 : Block) ≠ 1; decide⟩
  session := fun _ => ⟨rfl, rfl, by show (0b00110 : BitVec 5).extractLsb' 0 3 ≠ 7; decide,
    fun h => (by cases h.2.1), by show (0 : Block) ≤ 1; decide⟩
  verdict := fun h => by cases h
  authenticated := fun _ _ => ⟨rfl, rfl, by show (0 : Block).toNat < 2 ^ 16; decide⟩

/-- `running` with nothing in flight. -/
theorem running_idle_inv : Inv { running with pending := none } where
  segmenter := running_inv.segmenter
  schedule := running_inv.schedule
  pending := fun _ hi => by cases hi
  session := running_inv.session
  verdict := running_inv.verdict
  authenticated := running_inv.authenticated

theorem witness_InvKeptByEveryStep : Inv running ∧ ∃ t, step running = .next t :=
  ⟨running_inv, State.engineMove_next running⟩

/-- An authenticated session with no command in flight, about to get a word of any kind. -/
theorem witness_LatencyUnobservable :
    Inv { running with pending := none } ∧ { running with pending := none }.pending = none ∧
    decode 0x00000011 = .ok .process ∧ Instr.process ≠ .softReset ∧
    Admissible .process { running with pending := none } :=
  ⟨running_idle_inv, rfl, by decide, by decide, rfl, by show (0 : Block) ≠ 1; decide⟩

/-- Outside a session and with no valid key, two states that differ in all the unspecified elements. -/
theorem witness_UnspecifiedResetUnobservable :
    let s : State := { running with pending := none, session := false, keyValid := false }
    let t : State := { s with keys := .zero, chain := 1, tagacc := 2, hsub := 3, zblk := 4 }
    Inv s ∧ Indistinguishable s t ∧ ∃ s', step s = .next s' :=
  ⟨⟨running_inv.segmenter, fun h => (by cases h), fun _ h => (by cases h), fun h => (by cases h),
      running_inv.verdict, fun h => (by cases h)⟩,
    ⟨rfl, fun h => (by cases h), fun h => (by cases h), fun h => (by cases h)⟩,
    _, rfl⟩

/-- A session of one block in mode 6, and of none. -/
theorem witness_SessionRoundTrip :
    (let s : State := { idle with ctrl := 0b00110, msglen := 1 };
      s.pending = none ∧ Admissible .start s ∧ s.ctrl.getLsbD 3 = false ∧
        s.msglen.toNat = [(0x0011223344556677 : Block)].length ∧ s.ctrl.extractLsb' 0 3 = 6) ∧
    (let s : State := idle;
      s.pending = none ∧ Admissible .start s ∧ s.ctrl.getLsbD 3 = false ∧
        s.msglen.toNat = ([] : List Block).length) :=
  ⟨⟨rfl, ⟨rfl, rfl, rfl, by decide, by decide⟩, rfl, rfl, by decide⟩,
    rfl, ⟨rfl, rfl, rfl, by decide, by decide⟩, rfl, rfl⟩

theorem witness_TagHighBitsAlwaysChecked :
    let s : State := inEngine .final { inSession 0b11110 0 0 with din := 0x10000 }
    s.turn = .engine ∧ s.ctrl.extractLsb' 0 3 = 6 ∧ s.ctrl.getLsbD 3 = true ∧
    s.fpoly16.getLsbD 16 = true ∧ (s.ctrl.getLsbD 4 = true → s.fpoly8.getLsbD 8 = true) ∧
    s.din.extractLsb' 16 48 ≠ s.zblk.extractLsb' 16 48 := by decide

/-- Block 1 of two sessions of CTR, and of mode 6 in either direction, whose earlier data differ: CHAIN,
TAGACC, DOUT, SIGLEN and DIN do. -/
theorem witness_KeystreamIndependentOfData :
    ([0b00101, 0b00110] : List (BitVec 5)).all (fun c =>
      let s := inSession c 3 1
      let s' : State := { inSession (c ||| 0b01000) 2 1 with
        chain := 1, tagacc := 2, dout := 3, siglen := 4, din := 5 }
      s.turn == .prompt && s.pending == none && s.session && s.blkidx != s.msglen &&
      s'.turn == .prompt && s'.pending == none && s'.session && s'.blkidx != s'.msglen &&
      (s.ctrl.extractLsb' 0 3 == 5 || s.ctrl.extractLsb' 0 3 == 6) &&
      s'.ctrl.extractLsb' 0 3 == s.ctrl.extractLsb' 0 3 && s'.fpoly16 == s.fpoly16 &&
      s'.iv == s.iv && s'.blkidx == s.blkidx && s'.tagacc != s.tagacc) = true ∧
    (inSession 0b01101 2 1).keys = (inSession 0b00101 3 1).keys ∧
    Completing (inEngine .process (inSession 5 1 0)) False := ⟨by decide, rfl, by decide⟩

/-- "ABC" in ECB with no IV given, and the empty message in mode 6. -/
theorem witness_MessageRoundTrip :
    (idle.pending = none ∧ idle.segCnt = 0 ∧ idle.segbuf = 0 ∧
      8 * (byteGroups [0x41, 0x42, 0x43]).length < 2 ^ 64 ∧ 8 * (byteGroups []).length < 2 ^ 64) ∧
    Admissible .start { idle with ctrl := (⟨.ecb, .deg16, none⟩ : SessionOptions).ctrl .encrypt } ∧
    (⟨.gcm, .deg8, some 1⟩ : SessionOptions).mode = .gcm ∧
    Admissible .start
      { idle with ctrl := (⟨.gcm, .deg8, some 1⟩ : SessionOptions).ctrl .encrypt } :=
  ⟨by decide, ⟨rfl, rfl, rfl, by decide, by decide⟩, rfl,
    ⟨rfl, rfl, rfl, by decide, by decide⟩⟩

theorem witness_SiglenIsStrippedLength :
    8 * [(0x4142430000000000 : Block), 0].length < 2 ^ 64 := by decide

end Sys2Proof.Tests
end

section
/-! The bus at a register's offset, the registers of each class by their offsets, and the four
statements about the classes of 10_state.md R21 to R24. -/

namespace Sys2Proof.Machine

open Sys2Proof.Safety

/-! ### Classes of registers by offset -/

/-- The offsets of a class of registers, in the order of the map (10_state.md R18). -/
def Reg.offsetsOf (p : Reg → Bool) : List (BitVec 8) := (Reg.all.filter p).map Reg.offset

/-- An offset listed for a class is the offset of a register of that class. -/
theorem Reg.exists_of_mem_offsetsOf {p : Reg → Bool} {off : BitVec 8}
    (h : off ∈ Reg.offsetsOf p) : ∃ r : Reg, p r = true ∧ r.offset = off := by
  obtain ⟨r, hr, rfl⟩ := List.mem_map.1 h
  exact ⟨r, (List.mem_filter.1 hr).2, rfl⟩

/-- The registers whose every write is rejected while a command is in flight: the writable ones that
are not exempt, less CMD, which takes SOFT_RESET's word even then (10_state.md R23). -/
def Reg.rejectsWhileBusy (r : Reg) : Bool := !r.readOnly && r != .cmd && !r.busyExempt

theorem Reg.rejectsWhileBusy_iff (r : Reg) :
    r.rejectsWhileBusy = true ↔ r.readOnly = false ∧ r ≠ .cmd ∧ r.busyExempt = false := by
  simp [Reg.rejectsWhileBusy, and_assoc]

/-- The registers that read their value even while a command is in flight (10_state.md R24). -/
def Reg.readsWhileBusy (r : Reg) : Bool := !r.writeOnly && r != .status && !r.isResult

theorem Reg.readsWhileBusy_iff (r : Reg) :
    r.readsWhileBusy = true ↔ r.writeOnly = false ∧ r ≠ .status ∧ r.isResult = false := by
  simp [Reg.readsWhileBusy, and_assoc]

theorem Reg.locked_writable {r : Reg} (h : r.locked = true) : r.readOnly = false ∧ r ≠ .cmd := by
  cases r <;> cases h <;> decide

theorem Reg.busyExempt_writable {r : Reg} (h : r.busyExempt = true) :
    r.readOnly = false ∧ r ≠ .cmd ∧ r.locked = false := by
  cases r <;> cases h <;> decide

theorem Reg.isResult_readable {r : Reg} (h : r.isResult = true) :
    r.writeOnly = false ∧ r ≠ .status := by
  cases r <;> cases h <;> decide

/-! ### The state an access finds -/

/-- The state in which the core answers an access: the host's move is used up, the turn is k, and the
port's error response is not yet set. -/
abbrev State.accessed (s : State) (rest : List Input) (k : Turn) : State :=
  { s with inputs := rest, turn := k, slverr := false }

theorem State.busy_accessed {s : State} (h : s.pending ≠ none) (rest : List Input) (k : Turn) :
    (s.accessed rest k).busy = true :=
  Option.isSome_iff_ne_none.2 h

theorem State.not_busy_accessed {s : State} (h : s.pending = none) (rest : List Input) (k : Turn) :
    (s.accessed rest k).busy = false := by
  simp [State.busy, h]

/-! ### Writes to a register other than CMD -/

theorem State.busWriteReg_busy {s : State} (hb : s.busy = true) {r : Reg}
    (hr : r.busyExempt = false) (v : Word) : s.busWriteReg r v = s.reject .busy := by
  simp [State.busWriteReg, hb, hr]

theorem State.busWriteReg_locked {s : State} (hb : s.busy = false) (hs : s.session = true) {r : Reg}
    (hr : r.locked = true) (v : Word) : s.busWriteReg r v = s.reject .locked := by
  simp [State.busWriteReg, hb, hs, hr]

theorem State.busWriteReg_exempt (s : State) {r : Reg} (hr : r.busyExempt = true) (v : Word) :
    s.busWriteReg r v = s.writeReg v r := by
  obtain ⟨-, -, hl⟩ := Reg.busyExempt_writable hr
  simp [State.busWriteReg, hr, hl]

/-- A write to a read-only register is answered and does nothing else (10_state.md R21). -/
theorem serves_write_readOnly (s : State) {r : Reg} (hr : r.readOnly = true) (v : Word) :
    Serves s (writeAt r.offset v) (answered s) :=
  serves_of fun rest k _ => by
    simp only [State.busAccess, State.busWrite_offset, hr, if_true]

/-- A write to a locked register in a session, with no command in flight (10_state.md R22). -/
theorem serves_write_locked {s : State} (hp : s.pending = none) (hs : s.session = true) {r : Reg}
    (hr : r.locked = true) (v : Word) :
    Serves s (writeAt r.offset v) (rejected (answered s) .locked) := by
  obtain ⟨hro, hcmd⟩ := Reg.locked_writable hr
  exact serves_write r hro hcmd fun rest k =>
    State.busWriteReg_locked (State.not_busy_accessed hp rest k) hs hr v

/-- A write to ERRCODE, IRQ_EN or IRQ_STAT takes effect, BUSY or not, in a session or not
(10_state.md R23). -/
theorem serves_write_exempt {s t : State} {v : Word} {r : Reg} (hr : r.busyExempt = true)
    (h : ∀ (rest : List Input) (k : Turn),
      (s.accessed rest k).writeReg v r = { t with inputs := rest, turn := k }) :
    Serves s (writeAt r.offset v) t := by
  obtain ⟨hro, hcmd, -⟩ := Reg.busyExempt_writable hr
  exact serves_write r hro hcmd fun rest k => (State.busWriteReg_exempt _ hr v).trans (h rest k)

/-- A write that a command in flight turns away (10_state.md R23). -/
theorem serves_write_busy {s : State} (hp : s.pending ≠ none) {r : Reg}
    (hr : r.rejectsWhileBusy = true) (v : Word) :
    Serves s (writeAt r.offset v) (rejected (answered s) .busy) := by
  obtain ⟨hro, hcmd, hex⟩ := r.rejectsWhileBusy_iff.1 hr
  exact serves_write r hro hcmd fun rest k =>
    State.busWriteReg_busy (State.busy_accessed hp rest k) hex v

/-! ### Writes to CMD -/

theorem opcOf_of_rowOf_softReset {w : Word} (h : rowOf w = some .softReset) : opcOf w = 0xFF := by
  simp only [rowOf, ite_eq_iff, Option.some.injEq, reduceCtorEq, and_false, and_true, false_or,
    or_false] at h
  tauto

theorem decode_eq_ok {w : Word} {i : Instr} :
    decode w = .ok i ↔ rowOf w = some i ∧ reservedZero w = true := by
  unfold decode
  cases rowOf w with
  | none => simp
  | some j => cases reservedZero w <;> simp

/-- SOFT_RESET has one word (30_encoding.md R82). -/
theorem eq_of_decode_softReset {w : Word} (h : decode w = .ok .softReset) : w = 0xFF := by
  obtain ⟨hrow, hres⟩ := decode_eq_ok.1 h
  have hopc : opcOf w = 0xFF := opcOf_of_rowOf_softReset hrow
  have hhigh : w.extractLsb' 8 24 = 0 := by simpa [reservedZero, formatG, hopc] using hres
  have hsplit : w = w.extractLsb' 8 24 ++ opcOf w := by
    ext i
    simp [opcOf]
    grind
  rw [hsplit, hhigh, hopc]
  rfl

/-- A word written to CMD while a command is in flight is rejected with BUSY, legal or not, unless it
is SOFT_RESET's (10_state.md R23; 60_exceptions.md R165 check 1). -/
theorem State.issue_busy {s : State} (ht : s.turn ≠ .engine) (hb : s.busy = true) {w : Word}
    (hw : w ≠ 0xFF) : s.issue w = .next (s.reject .busy) := by
  unfold State.issue
  cases hd : decode w with
  | error e => simp [hb]
  | ok i =>
    have hi : i ≠ .softReset := by
      rintro rfl
      exact hw (eq_of_decode_softReset hd)
    have hf : s.failingCheck i = some .busy := by simp [State.failingCheck, hb]
    exact (exec_eq_command i hi s).trans (State.command_rejected ht hf _)

theorem State.issue_softReset (s : State) : s.issue 0xFF = .next s.resetCore := by
  have hd : decode 0xFF = .ok .softReset := by decide
  simp only [State.issue, hd, exec_softReset]

/-- A 32-bit write to CMD issues the word written, as the host's next move. -/
theorem serves_write_cmd {s t : State} {w : Word}
    (h : ∀ (rest : List Input) (k : Turn), k ≠ .engine →
      (s.accessed rest k).issue w =
        .next { t with inputs := rest, turn := k }) : Serves s (writeAt Reg.cmd.offset w) t :=
  serves_of fun rest k hk => (State.busWrite_offset _ .cmd w).trans (h rest k hk)

/-! ### Reads -/

/-- A 32-bit read at a register's offset (20_memory.md R61). -/
theorem State.busRead_offset (s : State) (r : Reg) :
    s.busRead r.offset 4 =
      if r.writeOnly then s.respond 0
      else if s.busy && r == .status then s.respondBusyStatus
      else if s.busy && r.isResult then s.respondAny 32
      else s.readReg r := by
  cases r <;> rfl

/-- A read of a register that is no result register returns the register's value, which the port and
the moves to come do not touch, and changes nothing else. -/
theorem State.readReg_stored (s : State) (rest : List Input) (k : Turn) {r : Reg}
    (hr : r.isResult = false) :
    (s.accessed rest k).readReg r =
      { s.accessed rest k with rdata := (s.readReg r).rdata } := by
  cases r <;> cases hr <;> rfl

/-- A read of a write-only register returns 0 (10_state.md R21). -/
theorem serves_read_writeOnly (s : State) {r : Reg} (hr : r.writeOnly = true) :
    Serves s (readAt r.offset) { answered s with rdata := 0 } :=
  serves_read r fun _ _ => by rw [State.busRead_offset, if_pos hr]; rfl

/-- A read of a result register while a command is in flight draws a free value (10_state.md R24). -/
theorem serves_read_result_busy {s : State} (hp : s.pending ≠ none) {r : Reg}
    (hr : r.isResult = true) :
    Serves s (readAt r.offset)
      { answered s with rdata := (s.anyNext.setWidth 32).setWidth 32, free := s.free + 1 } := by
  obtain ⟨hwo, hst⟩ := Reg.isResult_readable hr
  refine serves_read r fun rest k => ?_
  rw [State.busRead_offset]
  simp only [State.busy_accessed hp, hwo, hr, beq_eq_false_iff_ne.2 hst, Bool.and_false,
    Bool.and_true, Bool.false_eq_true, if_false, if_true]
  rfl

/-- A read of STATUS while a command is in flight (10_state.md R24; log 13). -/
theorem serves_read_status_busy {s : State} (hp : s.pending ≠ none) :
    Serves s (readAt Reg.status.offset)
      { answered s with
        rdata := statusWord (s.anyNext.extractLsb' 8 8) (s.anyNext.extractLsb' 0 6) true
        free := s.free + 1 } := by
  refine serves_read .status fun rest k => ?_
  rw [State.busRead_offset]
  simp only [State.busy_accessed hp, Reg.writeOnly, beq_self_eq_true, Bool.and_true,
    Bool.false_eq_true, if_false, if_true]
  rfl

/-- A read of any other readable register returns its value, BUSY or not (10_state.md R24). -/
theorem serves_read_stored (s : State) {r : Reg} (h : r.readsWhileBusy = true) :
    Serves s (readAt r.offset) { answered s with rdata := (s.readReg r).rdata } := by
  obtain ⟨hwo, hst, hr⟩ := r.readsWhileBusy_iff.1 h
  refine serves_read r fun rest k => ?_
  rw [State.busRead_offset]
  simp only [hwo, hr, beq_eq_false_iff_ne.2 hst, Bool.and_false, Bool.false_eq_true, if_false]
  exact State.readReg_stored s rest k hr

/-- Bit 7 and bits 31:16 of a STATUS word are reserved (10_state.md R26). -/
theorem statusWord_reserved (counts : BitVec 8) (flags : BitVec 6) (busy : Bool) :
    (statusWord counts flags busy).getLsbD 7 = false ∧
      (statusWord counts flags busy).extractLsb' 16 16 = 0 := by
  constructor
  · simp only [statusWord, BitVec.getLsbD_append]
    simp
  · ext i hi
    simp only [statusWord, BitVec.getElem_extractLsb', BitVec.getLsbD_append]
    have hflags : ¬ 15 + i < 6 := by omega
    simp [hflags]
    omega

end Sys2Proof.Machine

namespace Sys2Proof.Proofs

open Sys2Proof.Machine Sys2Proof.Safety

/-- Settles O28: the two lists are the offsets of the read-only and of the write-only registers. -/
theorem readOnlyAndWriteOnly : Obligations.ReadOnlyAndWriteOnly := by
  refine ⟨fun s off v hoff => ?_, fun s off hoff => ?_⟩
  · obtain ⟨r, hr, rfl⟩ := Reg.exists_of_mem_offsetsOf (p := Reg.readOnly) hoff
    exact serves_write_readOnly s hr v
  · obtain ⟨r, hr, rfl⟩ := Reg.exists_of_mem_offsetsOf (p := Reg.writeOnly) hoff
    exact serves_read_writeOnly s hr

/-- Settles O29: the list is the offsets of the locked registers. -/
theorem lockedWriteRejected : Obligations.LockedWriteRejected := by
  intro s off v hs hp hoff
  obtain ⟨r, hr, rfl⟩ := Reg.exists_of_mem_offsetsOf (p := Reg.locked) hoff
  exact serves_write_locked hp hs hr v

/-- Settles O30, by the kinds of register that 10_state.md R23 tells apart: those exempt from BUSY,
CMD by the word written, and every other writable one. -/
theorem writesWhileBusy : Obligations.WritesWhileBusy := by
  intro s v hp
  refine ⟨serves_write_exempt (r := .errcode) rfl fun _ _ => rfl,
    serves_write_exempt (r := .irqEn) rfl fun _ _ => rfl,
    serves_write_exempt (r := .irqStat) rfl fun _ _ => rfl, ?_, fun hv => ?_, fun off hoff => ?_⟩
  · exact ⟨(answered s).resetCore, serves_write_cmd fun _ _ _ => State.issue_softReset _, rfl⟩
  · exact serves_write_cmd fun rest k hk =>
      State.issue_busy (s := s.accessed rest k) hk (State.busy_accessed hp rest k) hv
  · obtain ⟨r, hr, rfl⟩ := Reg.exists_of_mem_offsetsOf (p := Reg.rejectsWhileBusy) hoff
    exact serves_write_busy hp hr v

/-- Settles O36, by the kinds of register that 10_state.md R24 tells apart: the result registers,
STATUS, and every other readable one. -/
theorem readsWhileBusy : Obligations.ReadsWhileBusy := by
  intro s hp returns
  have stored : ∀ r : Reg, r.readsWhileBusy = true → returns r.offset (s.readReg r).rdata :=
    fun _ => serves_read_stored s
  have errcode : ∀ c : ErrCode, s.errcode = c → returns 0x10 (c.code.setWidth 32) := by
    rintro _ rfl
    exact stored .errcode rfl
  refine ⟨fun off hoff => ?_, ⟨_, serves_read_status_busy hp, statusWord_bit0 _ _ _,
      statusWord_reserved _ _ _⟩,
    stored .id rfl, stored .ctrl rfl,
    errcode .none, errcode .align, errcode .badcmd, errcode .busy, errcode .seq, errcode .nokey,
    errcode .badfield, errcode .badmode, errcode .locked, errcode .segfull,
    stored .irqEn rfl, stored .irqStat rfl,
    stored .key0 rfl, stored .key1 rfl, stored .key2 rfl, stored .key3 rfl,
    stored .ivLo rfl, stored .ivHi rfl, stored .msglenLo rfl, stored .msglenHi rfl,
    stored .dinLo rfl, stored .dinHi rfl,
    stored .fpoly8 rfl, stored .fgen8 rfl, stored .fpoly16 rfl, stored .fgen16 rfl,
    stored .gfA rfl, stored .gfB rfl, stored .ksidx rfl, stored .sboxIdx rfl⟩
  obtain ⟨r, hr, rfl⟩ := Reg.exists_of_mem_offsetsOf (p := Reg.isResult) hoff
  exact ⟨_, serves_read_result_busy hp hr⟩

end Sys2Proof.Proofs
end

section
/-! The accesses that 20_memory.md R66 rejects with ALIGN, and the statement about them. -/

namespace Sys2Proof.Machine

open Sys2Proof.Safety

/-- The two ways an access fails to be an aligned one (20_memory.md R66). -/
theorem aligned_eq_false_iff (off : BitVec 8) (n : Nat) :
    aligned off n = false ↔ n ≠ 4 ∨ off.toNat % 4 ≠ 0 := by
  simp only [aligned, Bool.and_eq_false_iff, beq_eq_false_iff_ne]

/-- A write is 4 bytes wide exactly when every strobe is set (20_memory.md R62). -/
theorem strobeWidth_eq_four_iff (strb : BitVec 4) : strobeWidth strb = 4 ↔ strb = 0b1111 := by
  simp [strobeWidth]

theorem State.busRead_misaligned (s : State) {off : BitVec 8} {n : Nat}
    (h : aligned off n = false) : s.busRead off n = s.rejectAlign.respondAny 32 := by
  simp [State.busRead, h]

theorem State.busWrite_misaligned (s : State) {off : BitVec 8} {strb : BitVec 4}
    (h : aligned off (strobeWidth strb) = false) (v : Word) :
    s.busWrite off strb v = .next s.rejectAlign := by
  simp [State.busWrite, h]

/-- A misaligned read draws one free value, its answer, beside the rejection (00_scope.md R13). -/
theorem serves_read_misaligned (s : State) {off : BitVec 8} {n : Nat}
    (h : aligned off n = false) :
    Serves s (.read off n)
      { rejected s .align with
        slverr := true, rdata := (s.anyNext.setWidth 32).setWidth 32, free := s.free + 1 } :=
  serves_of fun rest k _ =>
    congrArg Host.Outcome.next (State.busRead_misaligned (s.accessed rest k) h)

/-- A misaligned write issues and stores nothing, at CMD's offset too. -/
theorem serves_write_misaligned (s : State) {off : BitVec 8} {strb : BitVec 4}
    (h : aligned off (strobeWidth strb) = false) (v : Word) :
    Serves s (.write off strb v) { rejected s .align with slverr := true } :=
  serves_of fun rest k _ => State.busWrite_misaligned (s.accessed rest k) h v

end Sys2Proof.Machine

namespace Sys2Proof.Proofs

open Sys2Proof.Machine Sys2Proof.Safety

/-- Settles O26: the widths, strobes and offsets it names are those of a misaligned access. -/
theorem misalignedAccessRejected : Obligations.MisalignedAccessRejected := by
  refine fun s off => ⟨fun n h => ?_, fun strb v h => ?_⟩
  · exact ⟨_, serves_read_misaligned s ((aligned_eq_false_iff off n).2 h)⟩
  · have hw : strobeWidth strb ≠ 4 ∨ off.toNat % 4 ≠ 0 :=
      h.imp_left (strobeWidth_eq_four_iff strb).not.2
    exact serves_write_misaligned s ((aligned_eq_false_iff off _).2 hw) v

end Sys2Proof.Proofs
end

section
/-! A legal word is its command's one encoding (30_encoding.md R81, R82); the words that are not
legal, and what a write of one to CMD does (R83). -/

namespace Sys2Proof

/-! ### The fields of a word -/

/-- The fields a word is read as (30_encoding.md R78, R79). -/
def fieldsOf (w : Word) : CommandFields := ⟨opcOf w, w.extractLsb' 8 1, w.extractLsb' 9 23⟩

/-- A word is made of its fields, with no bit left over. -/
theorem word_fieldsOf (w : Word) : (fieldsOf w).word = w := by
  ext j hj
  simp only [fieldsOf, opcOf, CommandFields.word]
  grind

theorem bit_fieldSelOf (w : Word) : (fieldSelOf w).bit = w.extractLsb' 8 1 := by
  have bit_select : ∀ b : BitVec 1, (if b = 0 then FieldSel.deg8 else .deg16).bit = b := by decide
  exact bit_select _

theorem formatG_iff (opc : BitVec 8) : formatG opc = true ↔ opc ∈ fieldOpcodes := by
  simp [formatG, fieldOpcodes, or_assoc]

/-- Bits 31:8, reserved in format C, are RSV and F16. -/
theorem bits31to8_eq_zero_iff (w : Word) :
    w.extractLsb' 8 24 = 0 ↔ w.extractLsb' 9 23 = 0 ∧ w.extractLsb' 8 1 = 0 := by
  simp only [← BitVec.toNat_inj, BitVec.extractLsb'_toNat, Nat.shiftRight_eq_div_pow,
    BitVec.toNat_ofNat, BitVec.ofNat_eq_ofNat]
  omega

/-- The assigned opcodes, one by one (30_encoding.md R81). -/
theorem mem_opcodes_iff (opc : BitVec 8) :
    opc ∈ plainOpcodes ++ fieldOpcodes ↔
      opc = 0x00 ∨ opc = 0x01 ∨ opc = 0x02 ∨ opc = 0x03 ∨ opc = 0x10 ∨ opc = 0x11 ∨ opc = 0x12 ∨
      opc = 0x13 ∨ opc = 0x30 ∨ opc = 0x31 ∨ opc = 0x32 ∨ opc = 0xFF ∨ opc = 0x20 ∨ opc = 0x21 ∨
      opc = 0x22 := by
  simp [plainOpcodes, fieldOpcodes]

theorem rowOf_of_unassigned {w : Word} (h : opcOf w ∉ plainOpcodes ++ fieldOpcodes) :
    rowOf w = none := by
  simp only [mem_opcodes_iff, not_or] at h
  simp only [rowOf, h, if_false]

/-- An assigned opcode names a command encoded with that opcode, and with the word's bit 8 in
format G (30_encoding.md R81). -/
theorem rowOf_of_assigned {w : Word} (h : opcOf w ∈ plainOpcodes ++ fieldOpcodes) :
    ∃ i, rowOf w = some i ∧
      i.fields = ⟨opcOf w, if formatG (opcOf w) then w.extractLsb' 8 1 else 0, 0⟩ := by
  rw [← bit_fieldSelOf]
  unfold rowOf
  generalize opcOf w = opc at h ⊢
  rcases (mem_opcodes_iff opc).1 h with rfl | rfl | rfl | rfl | rfl | rfl | rfl | rfl | rfl | rfl |
    rfl | rfl | rfl | rfl | rfl <;> exact ⟨_, rfl, rfl⟩

/-- The opcodes that name no command are the unassigned ones (30_encoding.md R81). -/
theorem rowOf_eq_none_iff (w : Word) :
    rowOf w = none ↔ opcOf w ∉ plainOpcodes ++ fieldOpcodes := by
  refine ⟨fun h hmem => ?_, rowOf_of_unassigned⟩
  obtain ⟨i, hi, -⟩ := rowOf_of_assigned hmem
  rw [h] at hi
  cases hi

theorem fields_of_rowOf {w : Word} {i : Instr} (h : rowOf w = some i) :
    i.fields = ⟨opcOf w, if formatG (opcOf w) then w.extractLsb' 8 1 else 0, 0⟩ := by
  have hmem : opcOf w ∈ plainOpcodes ++ fieldOpcodes :=
    not_not.1 fun hn => by cases h.symm.trans (rowOf_of_unassigned hn)
  obtain ⟨j, hj, hfields⟩ := rowOf_of_assigned hmem
  cases h.symm.trans hj
  exact hfields

/-- A command is encoded with the fields of a word it is decoded from. -/
theorem fields_of_decode {w : Word} {i : Instr} (h : decode w = .ok i) : i.fields = fieldsOf w := by
  obtain ⟨hrow, hres⟩ := Machine.decode_eq_ok.1 h
  rw [fields_of_rowOf hrow, fieldsOf]
  cases hg : formatG (opcOf w) with
  | true =>
    have hrsv : w.extractLsb' 9 23 = 0 := by simpa [reservedZero, hg] using hres
    simp [hrsv]
  | false =>
    obtain ⟨hrsv, hf16⟩ : w.extractLsb' 9 23 = 0 ∧ w.extractLsb' 8 1 = 0 :=
      (bits31to8_eq_zero_iff w).1 (by simpa [reservedZero, hg] using hres)
    simp [hrsv, hf16]

/-! ### Legal words -/

theorem encode_eq_of_decode {w : Word} {i : Instr} (h : decode w = .ok i) : encode i = w := by
  rw [encode, fields_of_decode h, word_fieldsOf]

/-- Every command comes back from its word. -/
theorem decode_encode (i : Instr) : decode (encode i) = .ok i := by
  cases i with
  | nop => exact Laws.Roundtrip.nop.2
  | keyLoad => exact Laws.Roundtrip.keyLoad.2
  | encBlock => exact Laws.Roundtrip.encBlock.2
  | decBlock => exact Laws.Roundtrip.decBlock.2
  | start => exact Laws.Roundtrip.start.2
  | process => exact Laws.Roundtrip.process.2
  | final => exact Laws.Roundtrip.final.2
  | abort => exact Laws.Roundtrip.abort.2
  | gfMul f => exact (Laws.Roundtrip.gfMul f).2
  | gfInv f => exact (Laws.Roundtrip.gfInv f).2
  | gfOrder f => exact (Laws.Roundtrip.gfOrder f).2
  | segPop => exact Laws.Roundtrip.segPop.2
  | segClear => exact Laws.Roundtrip.segClear.2
  | rsmRewind => exact Laws.Roundtrip.rsmRewind.2
  | softReset => exact Laws.Roundtrip.softReset.2

/-- The only word that decodes to a command is its encoding (30_encoding.md R82). -/
theorem decode_eq_ok_iff_encode {w : Word} {i : Instr} : decode w = .ok i ↔ encode i = w :=
  ⟨encode_eq_of_decode, fun h => h ▸ decode_encode i⟩

/-- Every command, in the order of the opcode map (30_encoding.md R81). -/
def Instr.all : List Instr :=
  [.nop, .keyLoad, .encBlock, .decBlock, .start, .process, .final, .abort, .gfMul .deg8,
    .gfMul .deg16, .gfInv .deg8, .gfInv .deg16, .gfOrder .deg8, .gfOrder .deg16, .segPop, .segClear,
    .rsmRewind, .softReset]

theorem Instr.mem_all (i : Instr) : i ∈ Instr.all := by
  cases i with
  | gfMul f => cases f <;> decide
  | gfInv f => cases f <;> decide
  | gfOrder f => cases f <;> decide
  | _ => decide

/-- The opcode map: every command with its word (30_encoding.md R81). -/
def opcodeMap : List (Word × Instr) := Instr.all.map fun i => (encode i, i)

theorem mem_opcodeMap_iff {w : Word} {i : Instr} : (w, i) ∈ opcodeMap ↔ encode i = w := by
  simp [opcodeMap, Instr.mem_all]

/-! ### ILLEGAL words -/

theorem exists_decode_error_iff (w : Word) :
    (∃ e, decode w = .error e) ↔ rowOf w = none ∨ reservedZero w = false := by
  unfold decode
  cases rowOf w with
  | none => simp
  | some i => cases reservedZero w <;> simp

/-- The reserved bits of an assigned opcode, by the format it is of (30_encoding.md R78, R79). -/
theorem reservedZero_eq_false_of_plain {w : Word} (h : opcOf w ∈ plainOpcodes) :
    reservedZero w = false ↔ w.extractLsb' 8 24 ≠ 0 := by
  have not_formatG : ∀ opc ∈ plainOpcodes, formatG opc = false := by decide
  simp [reservedZero, not_formatG _ h]

theorem reservedZero_eq_false_of_field {w : Word} (h : opcOf w ∈ fieldOpcodes) :
    reservedZero w = false ↔ w.extractLsb' 9 23 ≠ 0 := by
  simp [reservedZero, (formatG_iff _).2 h]

/-- The two ways a word is ILLEGAL: its opcode is unassigned, or a bit its format reserves is set
(30_encoding.md R83). -/
theorem exists_decode_error_iff_opcode (w : Word) :
    (∃ e, decode w = .error e) ↔
      opcOf w ∉ plainOpcodes ++ fieldOpcodes ∨
      (opcOf w ∈ plainOpcodes ∧ w.extractLsb' 8 24 ≠ 0) ∨
      (opcOf w ∈ fieldOpcodes ∧ w.extractLsb' 9 23 ≠ 0) := by
  rw [exists_decode_error_iff, rowOf_eq_none_iff]
  have not_field : ∀ opc ∈ plainOpcodes, opc ∉ fieldOpcodes := by decide
  by_cases hp : opcOf w ∈ plainOpcodes
  · simp [hp, not_field _ hp, reservedZero_eq_false_of_plain hp]
  · by_cases hf : opcOf w ∈ fieldOpcodes
    · simp [hp, hf, reservedZero_eq_false_of_field hf]
    · simp [hp, hf]

/-- A word whose opcode names a command, and which is not that command's encoding, has a reserved
bit set. -/
theorem decode_eq_reservedBits {w : Word} {i : Instr} (hrow : rowOf w = some i)
    (hw : encode i ≠ w) : decode w = .error .reservedBits := by
  have hres : reservedZero w = false :=
    Bool.eq_false_iff.2 fun hz => hw (encode_eq_of_decode (Machine.decode_eq_ok.2 ⟨hrow, hz⟩))
  simp [decode, hrow, hres]

end Sys2Proof

namespace Sys2Proof.Machine

open Sys2Proof.Safety

/-- 30_encoding.md R83: an ILLEGAL word makes no check but BUSY. -/
theorem State.issue_illegal (s : State) {w : Word} {e : DecodeError} (h : decode w = .error e) :
    s.issue w = .next (s.reject (if s.busy then .busy else .badcmd)) := by
  simp [State.issue, h]

/-- A write of an ILLEGAL word to CMD (30_encoding.md R83). -/
theorem serves_write_illegal (s : State) {w : Word} {e : DecodeError} (h : decode w = .error e) :
    Serves s (writeAt Reg.cmd.offset w)
      (rejected (answered s) (if s.pending = none then .badcmd else .busy)) := by
  refine serves_write_cmd fun rest k _ => ?_
  rw [State.issue_illegal _ h]
  by_cases hp : s.pending = none
  · rw [State.not_busy_accessed hp, if_pos hp]; rfl
  · rw [State.busy_accessed hp, if_neg hp]; rfl

/-- START's last check, MODE, when the earlier ones pass (43_modes.md R132). -/
theorem issueCheck_start_reserved {s : State} (hs : s.session = false) (hk : s.keyValid = true)
    (hv : s.fpoly16.getLsbD 16 = true) (hm : s.ctrl.extractLsb' 0 3 = 7) :
    issueCheck .start s = some .badmode := by
  have hmode : s.mode = .reserved := s.mode_eq_reserved.2 hm
  simp [issueCheck, startChecks, firstFailure, State.polyValid, hs, hk, hv, hmode]

end Sys2Proof.Machine

namespace Sys2Proof.Proofs

open Sys2Proof.Machine Sys2Proof.Safety

/-- Settles O3: the list is the opcode map, each command with its encoding. -/
theorem legalWordsAreEighteen : Obligations.LegalWordsAreEighteen := by
  intro w i
  calc decode w = .ok i
    _ ↔ encode i = w := decode_eq_ok_iff_encode
    _ ↔ (w, i) ∈ opcodeMap := mem_opcodeMap_iff.symm

/-- Settles O5: the ILLEGAL words by the list their opcode is in, the write of one, OPC = 0xFF, and
START with MODE = 7. -/
theorem illegalWordRejected : Obligations.IllegalWordRejected := by
  refine ⟨exists_decode_error_iff_opcode, fun s w e => serves_write_illegal s, fun w hopc hw => ?_,
    fun s hi hs hk hv hm => ?_⟩
  · have hrow : rowOf w = some .softReset := by simp [rowOf, opcOf, hopc]
    exact decode_eq_reservedBits hrow hw.symm
  · have hf : s.failingCheck .start = some .badmode := by
      rw [State.failingCheck, issueCheck_start_reserved hs hk hv hm]
      simp [State.busy, hi.2]
    exact (exec_eq_command .start (by decide) s).trans (State.command_rejected hi.1 hf _)

end Sys2Proof.Proofs
end

section
/-! The bits of a carry-less product (40_field_engine.md R88), and the statement about them. -/

namespace Sys2Proof.Machine

/-- The positions of b above its top bit give a product nothing. -/
theorem clmulBelow_eq_clmul (a b : Nat) {n : Nat} (h : b.log2 + 1 ≤ n) :
    clmulBelow a b n = clmul a b := by
  induction n, h using Nat.le_induction with
  | base => rfl
  | succ n hn ih =>
    have hb : b.testBit n = false :=
      Nat.testBit_lt_two_pow (Nat.lt_log2_self.trans_le (Nat.pow_le_pow_right (by decide) hn))
    simp [clmulBelow, hb, ih]

/-- Bit k of a product comes from the positions of b up to k. -/
theorem clmulBelow_testBit_of_lt (a b : Nat) {n k : Nat} (h : k + 1 ≤ n) :
    (clmulBelow a b n).testBit k = (clmulBelow a b (k + 1)).testBit k := by
  induction n, h using Nat.le_induction with
  | base => rfl
  | succ n hn ih =>
    have hshift : (a <<< n).testBit k = false := by
      rw [Nat.testBit_shiftLeft, decide_eq_false (by omega), Bool.false_and]
    rw [clmulBelow, Nat.testBit_xor, ih]
    split <;> simp [hshift]

theorem clmulBelow_testBit_eq_foldl (a b k : Nat) {n : Nat} (h : n ≤ k + 1) :
    (clmulBelow a b n).testBit k =
      (List.range n).foldl (fun t i => t ^^ (b.testBit i && a.testBit (k - i))) false := by
  induction n with
  | zero => simp [clmulBelow]
  | succ n ih =>
    have hle : k ≥ n := by omega
    rw [List.range_succ, List.foldl_append, ← ih (by omega), clmulBelow, Nat.testBit_xor]
    cases hb : b.testBit n <;> simp [hb, Nat.testBit_shiftLeft, hle]

theorem clmul_testBit (a b k : Nat) :
    (clmul a b).testBit k =
      (List.range (k + 1)).foldl (fun t i => t ^^ (b.testBit i && a.testBit (k - i))) false := by
  rw [← clmulBelow_eq_clmul a b (Nat.le_max_left (b.log2 + 1) (k + 1)),
    clmulBelow_testBit_of_lt a b (Nat.le_max_right _ _), clmulBelow_testBit_eq_foldl a b k le_rfl]

theorem clmul_lt_two_pow {a b wa wb : Nat} (ha : a ≠ 0) (hb : b ≠ 0) (hwa : a < 2 ^ wa)
    (hwb : b < 2 ^ wb) : clmul a b < 2 ^ (wa + wb - 1) := by
  have hda : a.log2 < wa := (Nat.log2_lt ha).2 hwa
  have hdb : b.log2 < wb := (Nat.log2_lt hb).2 hwb
  exact Nat.lt_pow_two_of_testBit _ fun j hj =>
    clmulBelow_testBit_of_le a b (b.log2 + 1) j (by omega)

theorem clmul_zero_right (a : Nat) : clmul a 0 = 0 := by simp [clmul, clmulBelow]

theorem clmul_zero_left (b : Nat) : clmul 0 b = 0 := by
  have below_zero : ∀ n, clmulBelow 0 b n = 0 := fun n => by
    induction n with
    | zero => rfl
    | succ n ih => simp [clmulBelow, ih]
  exact below_zero _

end Sys2Proof.Machine

namespace Sys2Proof.Proofs

open Sys2Proof.Machine

/-- Settles O42: the bits one by one, the top bit's place, and a zero operand on either side. -/
theorem clmulIsCarryless : Obligations.ClmulIsCarryless :=
  ⟨clmul_testBit, fun _ _ _ _ => clmul_lt_two_pow, fun a => ⟨clmul_zero_right a, clmul_zero_left a⟩⟩

end Sys2Proof.Proofs
end

section
/-! An integer as a polynomial over GF(2) (40_field_engine.md R87), and its residue modulo P. The
field functions are the operations of the ring GF(2)[X] / (P), and of a field when P is irreducible.
The statements about the product, powers and inverses follow. -/

namespace Sys2Proof.Machine

open Polynomial Finset

/-! ### The polynomial an integer denotes -/

/-- The polynomial whose coefficient of X^k is bit k of x (40_field_engine.md R87). -/
noncomputable def polyOf (x : Nat) : (ZMod 2)[X] :=
  ∑ k ∈ range (x.log2 + 1), if x.testBit k then X ^ k else 0

theorem polyOf_coeff (x k : Nat) : (polyOf x).coeff k = if x.testBit k then 1 else 0 := by
  rw [polyOf, finsetSum_coeff, sum_eq_single k]
  · split <;> simp
  · intro j _ hj
    split <;> simp [coeff_X_pow, hj.symm]
  · intro hk
    have hbit : x.testBit k = false :=
      Nat.testBit_lt_two_pow <| Nat.lt_log2_self.trans_le <|
        Nat.pow_le_pow_right (by decide) (by simpa using hk)
    simp [hbit]

@[simp] theorem polyOf_zero : polyOf 0 = 0 := by simp [polyOf]

@[simp] theorem polyOf_one : polyOf 1 = 1 := by simp [polyOf, show Nat.log2 1 = 0 by decide]

/-- "addition = XOR" (40_field_engine.md R88). -/
theorem polyOf_xor (x y : Nat) : polyOf (x ^^^ y) = polyOf x + polyOf y := by
  ext k
  rw [coeff_add, polyOf_coeff, polyOf_coeff, polyOf_coeff, Nat.testBit_xor]
  cases x.testBit k <;> cases y.testBit k <;> decide

theorem polyOf_shiftLeft (x k : Nat) : polyOf (x <<< k) = polyOf x * X ^ k := by
  ext j
  rw [coeff_mul_X_pow', polyOf_coeff, polyOf_coeff, Nat.testBit_shiftLeft]
  by_cases h : k ≤ j <;> simp [h]

theorem polyOf_clmulBelow (a b n : Nat) :
    polyOf (clmulBelow a b n) =
      polyOf a * ∑ k ∈ range n, if b.testBit k then X ^ k else 0 := by
  induction n with
  | zero => simp [clmulBelow]
  | succ n ih =>
    rw [clmulBelow, polyOf_xor, ih, sum_range_succ, mul_add]
    split <;> simp [polyOf_shiftLeft]

/-- `clmul` is "the product of the two polynomials over GF(2)" (40_field_engine.md R88). -/
theorem polyOf_clmul (a b : Nat) : polyOf (clmul a b) = polyOf a * polyOf b :=
  polyOf_clmulBelow a b (b.log2 + 1)

theorem polyOf_injective : Function.Injective polyOf := fun x y h => by
  refine Nat.eq_of_testBit_eq fun k => ?_
  have hk : (polyOf x).coeff k = (polyOf y).coeff k := congrArg (coeff · k) h
  rw [polyOf_coeff, polyOf_coeff] at hk
  cases hx : x.testBit k <;> cases hy : y.testBit k <;> simp_all

theorem polyOf_surjective : Function.Surjective polyOf := fun p => by
  induction p using Polynomial.induction_on' with
  | add p q hp hq =>
    obtain ⟨x, rfl⟩ := hp
    obtain ⟨y, rfl⟩ := hq
    exact ⟨x ^^^ y, polyOf_xor x y⟩
  | monomial n c =>
    have hc : c = 0 ∨ c = 1 := by revert c; decide
    obtain rfl | rfl := hc
    · exact ⟨0, by simp⟩
    · exact ⟨1 <<< n, by rw [polyOf_shiftLeft, polyOf_one, one_mul, monomial_one_right_eq_X_pow]⟩

theorem natDegree_polyOf (x : Nat) : (polyOf x).natDegree = deg x := by
  obtain rfl | hx := eq_or_ne x 0
  · simp [deg]
  refine natDegree_eq_of_le_of_coeff_ne_zero (natDegree_le_iff_coeff_eq_zero.2 fun k hk => ?_) ?_
  · have hbit : x.testBit k = false := Nat.testBit_lt_two_pow ((Nat.log2_lt hx).1 hk)
    simp [polyOf_coeff, hbit]
  · simp [polyOf_coeff, deg, Nat.testBit_log2 hx]

theorem polyOf_ne_zero {P : Nat} (hP : 1 ≤ deg P) : polyOf P ≠ 0 := fun h => by
  have hdeg := natDegree_polyOf P
  rw [h, natDegree_zero] at hdeg
  omega

/-! ### Residues modulo P -/

/-- x as an element of GF(2)[X] / (P). -/
noncomputable def residue (P x : Nat) : AdjoinRoot (polyOf P) := AdjoinRoot.mk (polyOf P) (polyOf x)

@[simp] theorem residue_zero (P : Nat) : residue P 0 = 0 := by simp [residue]

@[simp] theorem residue_one (P : Nat) : residue P 1 = 1 := by simp [residue]

@[simp] theorem residue_clmul (P a b : Nat) :
    residue P (clmul a b) = residue P a * residue P b := by
  simp [residue, polyOf_clmul]

/-- A shifted P, subtracted by the loop of R89, does not change the residue. -/
theorem residue_xor_shiftLeft (P x k : Nat) : residue P (x ^^^ (P <<< k)) = residue P x := by
  simp [residue, polyOf_xor, polyOf_shiftLeft]

theorem residue_reduceFrom (P n k x : Nat) : residue P (reduceFrom P n k x) = residue P x := by
  induction k generalizing x with
  | zero => rfl
  | succ k ih =>
    rw [reduceFrom, ih]
    split
    · exact residue_xor_shiftLeft P x k
    · rfl

@[simp] theorem residue_pmod (P x : Nat) : residue P (pmod x P) = residue P x :=
  residue_reduceFrom P _ _ x

@[simp] theorem residue_gfMul (a b P : Nat) :
    residue P (gfMul a b P) = residue P a * residue P b := by
  simp [gfMul]

/-- Each residue has at most one member below 2^n. -/
theorem eq_of_residue_eq {P x y : Nat} (hP : 1 ≤ deg P) (hx : x < 2 ^ deg P) (hy : y < 2 ^ deg P)
    (h : residue P x = residue P y) : x = y := by
  have hdvd : polyOf P ∣ polyOf (x ^^^ y) := by
    rw [polyOf_xor, ← CharTwo.sub_eq_add]
    exact AdjoinRoot.mk_eq_mk.1 h
  have hdeg : deg (x ^^^ y) < deg P := by
    by_cases hz : x ^^^ y = 0
    · rw [hz]; exact hP
    · exact (Nat.log2_lt hz).2 (Nat.xor_lt_two_pow hx hy)
  have hzero : polyOf (x ^^^ y) = 0 :=
    eq_zero_of_dvd_of_natDegree_lt hdvd (by simpa only [natDegree_polyOf] using hdeg)
  exact Nat.xor_eq_zero_iff.1 (polyOf_injective (hzero.trans polyOf_zero.symm))

/-! ### Reduction -/

/-- One turn of R89's loop clears the top bit. -/
theorem reduceStep_lt {P k x : Nat} (hP : P ≠ 0) (hx : x < 2 ^ (deg P + (k + 1))) :
    (if x.testBit (deg P + k) then x ^^^ (P <<< k) else x) < 2 ^ (deg P + k) := by
  have htop : P.testBit (deg P) = true := Nat.testBit_log2 hP
  refine Nat.lt_pow_two_of_testBit _ fun j hj => ?_
  obtain rfl | hlt := hj.eq_or_lt
  · cases hbit : x.testBit (deg P + k) <;> simp [hbit, Nat.testBit_shiftLeft, htop]
  · have hxj : x.testBit j = false :=
      Nat.testBit_lt_two_pow (hx.trans_le (Nat.pow_le_pow_right (by decide) (by omega)))
    have hPj : P.testBit (j - k) = false :=
      Nat.testBit_lt_two_pow ((Nat.log2_lt hP).1 (by unfold deg at hlt; omega))
    split <;> simp [hxj, hPj, Nat.testBit_shiftLeft]

theorem reduceFrom_lt {P : Nat} (hP : P ≠ 0) {k x : Nat} (hx : x < 2 ^ (deg P + k)) :
    reduceFrom P (deg P) k x < 2 ^ deg P := by
  induction k generalizing x with
  | zero => exact hx
  | succ k ih => exact ih (reduceStep_lt hP hx)

/-- The closure property of 40_field_engine.md R89. -/
theorem pmod_lt {P : Nat} (hP : 1 ≤ deg P) (x : Nat) : pmod x P < 2 ^ deg P := by
  have hP0 : P ≠ 0 := by rintro rfl; exact absurd hP (by decide)
  exact reduceFrom_lt hP0 (Nat.lt_log2_self.trans_le (Nat.pow_le_pow_right (by decide) (by omega)))

theorem gfMul_lt {P : Nat} (hP : 1 ≤ deg P) (a b : Nat) : gfMul a b P < 2 ^ deg P := pmod_lt hP _

theorem one_lt_two_pow_deg {P : Nat} (hP : 1 ≤ deg P) : 1 < 2 ^ deg P :=
  Nat.one_lt_two_pow (by omega)

/-- `pmod` chooses the one member below 2^n of each residue. -/
theorem pmod_eq_pmod_iff {P : Nat} (hP : 1 ≤ deg P) (x y : Nat) :
    pmod x P = pmod y P ↔ residue P x = residue P y := by
  constructor
  · intro h
    rw [← residue_pmod P x, h, residue_pmod]
  · intro h
    exact eq_of_residue_eq hP (pmod_lt hP x) (pmod_lt hP y) (by simpa using h)

theorem pmod_of_lt {P x : Nat} (hP : 1 ≤ deg P) (hx : x < 2 ^ deg P) : pmod x P = x :=
  eq_of_residue_eq hP (pmod_lt hP x) hx (residue_pmod P x)

theorem pmod_eq_zero_iff {P : Nat} (hP : 1 ≤ deg P) (x : Nat) :
    pmod x P = 0 ↔ residue P x = 0 := by
  simpa [pmod_of_lt hP (Nat.two_pow_pos _)] using pmod_eq_pmod_iff hP x 0

/-! ### Powers -/

theorem gfPowBits_lt {P : Nat} (hP : 1 ≤ deg P) (a k e : Nat) : gfPowBits a P k e < 2 ^ deg P := by
  cases k with
  | zero => exact one_lt_two_pow_deg hP
  | succ k =>
    rw [gfPowBits]
    split <;> exact gfMul_lt hP _ _

theorem gfPow_lt {P : Nat} (hP : 1 ≤ deg P) (a e : Nat) : gfPow a e P < 2 ^ deg P :=
  gfPowBits_lt hP _ _ _

/-- Squaring over k bits of the exponent gives the power by those bits. -/
theorem residue_gfPowBits (a P : Nat) {k e : Nat} (h : e < 2 ^ k) :
    residue P (gfPowBits a P k e) = residue P a ^ e := by
  induction k generalizing e with
  | zero =>
    obtain rfl : e = 0 := by simpa using h
    simp [gfPowBits]
  | succ k ih =>
    have hhalf := ih (e := e / 2) (by omega)
    rw [gfPowBits]
    split
    next hodd =>
      have he : e = e / 2 + e / 2 + 1 := by omega
      rw [residue_gfMul, residue_gfMul, hhalf, ← pow_add, ← pow_succ, ← he]
    next heven =>
      have he : e = e / 2 + e / 2 := by omega
      rw [residue_gfMul, hhalf, ← pow_add, ← he]

@[simp] theorem residue_gfPow (a e P : Nat) : residue P (gfPow a e P) = residue P a ^ e := by
  refine residue_gfPowBits a P ?_
  split
  next h => simp [h]
  next => exact Nat.lt_log2_self

theorem gfPow_zero (a P : Nat) : gfPow a 0 P = 1 := rfl

theorem gfPow_succ {P : Nat} (hP : 1 ≤ deg P) (a e : Nat) :
    gfPow a (e + 1) P = gfMul (gfPow a e P) a P :=
  eq_of_residue_eq hP (gfPow_lt hP _ _) (gfMul_lt hP _ _) (by simp [pow_succ])

/-! ### Inverses -/

/-- A polynomial that `clmul` gives only trivially is irreducible. -/
theorem irreducible_polyOf {P : Nat} (hP : 1 ≤ deg P)
    (h : ∀ x y : Nat, clmul x y = P → x = 1 ∨ y = 1) : Irreducible (polyOf P) where
  not_isUnit := fun hu => by
    have hdeg := natDegree_eq_zero_of_isUnit hu
    rw [natDegree_polyOf] at hdeg
    omega
  isUnit_or_isUnit := fun p q hpq => by
    obtain ⟨x, rfl⟩ := polyOf_surjective p
    obtain ⟨y, rfl⟩ := polyOf_surjective q
    have hxy : clmul x y = P := polyOf_injective ((polyOf_clmul x y).trans hpq.symm)
    obtain rfl | rfl := h x y hxy <;> simp

/-- GF(2)[X] / (P) has 2^n elements. -/
theorem natCard_residues {P : Nat} (hP : 1 ≤ deg P) :
    Nat.card (AdjoinRoot (polyOf P)) = 2 ^ deg P := by
  have hP0 := polyOf_ne_zero hP
  have := (AdjoinRoot.powerBasis hP0).finite
  rw [Module.natCard_eq_pow_finrank (K := ZMod 2), (AdjoinRoot.powerBasis hP0).finrank,
    AdjoinRoot.powerBasis_dim, natDegree_polyOf, Nat.card_zmod]

/-- "the nonzero elements of GF(2^n) form a group of order 2^n - 1" (40_field_engine.md R92). -/
theorem residue_pow_eq_one {P a : Nat} (hP : 1 ≤ deg P) (hirr : Irreducible (polyOf P))
    (ha : residue P a ≠ 0) : residue P a ^ (2 ^ deg P - 1) = 1 := by
  have := Fact.mk hirr
  have hcard := natCard_residues hP
  have : Finite (AdjoinRoot (polyOf P)) :=
    Nat.finite_of_card_ne_zero (by rw [hcard]; exact (Nat.two_pow_pos _).ne')
  have := Fintype.ofFinite (AdjoinRoot (polyOf P))
  have hpow := FiniteField.pow_card_sub_one_eq_one (residue P a) ha
  rwa [Fintype.card_eq_nat_card, hcard] at hpow

theorem residue_gfInv (a P : Nat) : residue P (gfInv a P) = residue P a ^ (2 ^ deg P - 2) :=
  residue_gfPow a _ P

theorem gfMul_gfInv {P a : Nat} (hP : 1 ≤ deg P) (hirr : Irreducible (polyOf P))
    (ha : residue P a ≠ 0) : gfMul a (gfInv a P) P = 1 := by
  refine eq_of_residue_eq hP (gfMul_lt hP _ _) (one_lt_two_pow_deg hP) ?_
  have hexp : 2 ^ deg P - 2 + 1 = 2 ^ deg P - 1 := by have := one_lt_two_pow_deg hP; omega
  rw [residue_gfMul, residue_gfInv, ← pow_succ', hexp, residue_pow_eq_one hP hirr ha, residue_one]

/-- The sentinel "falls out of the formula" (40_field_engine.md R92): the exponent is not 0. -/
theorem gfInv_eq_zero {P a : Nat} (hP : 2 ≤ deg P) (ha : residue P a = 0) : gfInv a P = 0 := by
  have hpow : 2 ^ 2 ≤ 2 ^ deg P := Nat.pow_le_pow_right (by decide) hP
  have hexp : 2 ^ deg P - 2 ≠ 0 := by omega
  refine eq_of_residue_eq (by omega) (gfPow_lt (by omega) _ _) (Nat.two_pow_pos _) ?_
  rw [residue_gfInv, ha, zero_pow hexp, residue_zero]

end Sys2Proof.Machine

namespace Sys2Proof.Proofs

open Sys2Proof.Machine

/-- Settles O44: reducing an operand keeps its residue. -/
theorem gfMulReducesOperands : Obligations.GfMulReducesOperands := fun a b _ hP =>
  ⟨rfl, (pmod_eq_pmod_iff hP _ (clmul a b)).2 (by simp)⟩

/-- Settles O45: the two sides of the recursion are below 2^n and are the same power of a's
residue. -/
theorem gfPowRecursion : Obligations.GfPowRecursion := fun a P hP =>
  ⟨pmod_of_lt hP (one_lt_two_pow_deg hP), gfPow_zero a P,
    fun e => ⟨gfPow_succ hP a e, gfPow_lt hP a e⟩⟩

/-- Settles O46: the residues modulo an irreducible P are a field of 2^n elements, modulo any P a
ring; the reducible example is computed. -/
theorem gfInvIsInverse : Obligations.GfInvIsInverse :=
  ⟨fun _ _ _ => rfl,
    fun a _ hP hirr ha =>
      gfMul_gfInv hP (irreducible_polyOf hP hirr) ((pmod_eq_zero_iff hP a).not.1 ha),
    fun a _ hP ha => gfInv_eq_zero hP ((pmod_eq_zero_iff (by omega) a).1 ha),
    by decide⟩

end Sys2Proof.Proofs
end

section
/-! What a command's issue and completion leave, and the statements about the three field commands
(40_field_engine.md R97, R98, R99). -/

namespace Sys2Proof

open Sys2Proof.Safety

/-- The two words of a command of format G whose row takes the field select from bit 8
(30_encoding.md R79). -/
theorem fieldWords_of_rowOf {i : FieldSel → Instr} {w8 w16 : Word} {opc : BitVec 8}
    (h8 : encode (i .deg8) = w8) (h16 : encode (i .deg16) = w16) (hopc : opcOf w8 = opc)
    (hrow : ∀ w : Word, opcOf w = opc → rowOf w = some (i (fieldSelOf w))) :
    FieldWords i w8 w16 := by
  subst h8 h16
  refine ⟨rfl, decode_encode _, rfl, decode_encode _, fun w hw hw8 hw16 => ?_⟩
  refine decode_eq_reservedBits (hrow w (hw.trans hopc)) ?_
  cases fieldSelOf w with
  | deg8 => exact hw8.symm
  | deg16 => exact hw16.symm

end Sys2Proof

namespace Sys2Proof.Machine

open Sys2Proof.Safety

/-! ### A command's issue and completion -/

/-- Every command but SOFT_RESET is turned away while one is in flight. -/
theorem turnedAwayWhileBusy_of_ne {i : Instr} (hi : i ≠ .softReset) : TurnedAwayWhileBusy i :=
  fun s ht hp => by
    have hf : s.failingCheck i = some .busy := by
      simp [State.failingCheck, State.busy, Option.isSome_iff_ne_none.2 hp]
    exact (exec_eq_command i hi s).trans (State.command_rejected ht hf _)

/-- A command whose effect and completion do not depend on its own being in flight leaves the same
however it completes. -/
theorem exec_of_completing {i : Instr} (hi : i ≠ .softReset) {s : State}
    (hf : (commandEffect i (s.accept i)).complete = (commandEffect i s).complete)
    (h : Completing s (Admissible i s)) : exec i s = .next (commandEffect i s).complete := by
  rw [exec_eq_command i hi]
  obtain ht | ⟨ht, hp, ha⟩ := h
  · exact State.command_engine ht i _
  · rw [State.command_prompt ht ((s.failingCheck_eq_none i).2 ⟨hp, ha⟩), hf]

/-- The first failing check of an issue with nothing in flight. -/
theorem exec_of_issueCheck {i : Instr} (hi : i ≠ .softReset) {s : State} {c : ErrCode}
    (h : Issuing s) (hc : issueCheck i s = some c) : exec i s = .next (rejected s c) := by
  have hf : s.failingCheck i = some c := by simp [State.failingCheck, State.busy, h.2, hc]
  exact (exec_eq_command i hi s).trans (State.command_rejected h.1 hf _)

/-! ### The field commands -/

/-- The field of a field command. -/
def fieldOf : Instr → Option FieldSel
  | .gfMul f | .gfInv f | .gfOrder f => some f
  | _ => none

theorem ne_softReset_of_fieldOf {i : Instr} {f : FieldSel} (h : fieldOf i = some f) :
    i ≠ .softReset := by
  rintro rfl
  cases h

/-- BADFIELD is a field command's one check after BUSY and BADCMD (60_exceptions.md R165). -/
theorem issueCheck_of_fieldOf {i : Instr} {f : FieldSel} (h : fieldOf i = some f) (s : State) :
    issueCheck i s = if s.polyValid f then none else some .badfield := by
  have hcheck : issueCheck i s = firstFailure [(!s.polyValid f, .badfield)] := by
    cases i <;> cases h <;> rfl
  rw [hcheck]
  cases s.polyValid f <;> simp [firstFailure]

theorem exec_field_completing {i : Instr} {f : FieldSel} (h : fieldOf i = some f) {s : State}
    (hc : Completing s (s.polyValid f = true)) : exec i s = .next (commandEffect i s).complete := by
  refine exec_of_completing (ne_softReset_of_fieldOf h) ?_ (hc.imp_right ?_)
  · cases i <;> cases h <;> rfl
  · rintro ⟨ht, hp, hv⟩
    exact ⟨ht, hp, (issueCheck_eq_none i s).1 (by simp [issueCheck_of_fieldOf h, hv])⟩

theorem exec_field_badfield {i : Instr} {f : FieldSel} (h : fieldOf i = some f) {s : State}
    (hi : Issuing s) (hv : s.polyValid f = false) : exec i s = .next (rejected s .badfield) :=
  exec_of_issueCheck (ne_softReset_of_fieldOf h) hi (by simp [issueCheck_of_fieldOf h, hv])

/-- "A valid register has degree exactly n" (40_field_engine.md R95). -/
theorem deg_of_getLsbD {n : Nat} {p : BitVec (n + 1)} (h : p.getLsbD n = true) :
    deg p.toNat = n := by
  have hle : 2 ^ n ≤ p.toNat := Nat.ge_two_pow_of_testBit h
  exact (Nat.log2_eq_iff ((Nat.two_pow_pos n).trans_le hle).ne').2 ⟨hle, p.isLt⟩

/-- GF_MUL's result is below 2^n (40_field_engine.md R97). -/
theorem gfMul_lt_of_getLsbD {n : Nat} {p : BitVec (n + 1)} (hn : 1 ≤ n) (h : p.getLsbD n = true)
    (a b : Nat) : gfMul a b p.toNat < 2 ^ n := by
  have hdeg := deg_of_getLsbD h
  have hlt := gfMul_lt (hn.trans_eq hdeg.symm) a b
  rwa [hdeg] at hlt

end Sys2Proof.Machine

namespace Sys2Proof.Proofs

open Sys2Proof.Machine Sys2Proof.Safety

/-- Settles O20: the words of opcode 0x20, the check of the polynomial, and the bound by its
degree. -/
theorem gfMulMultiplies : Obligations.GfMulMultiplies :=
  ⟨fieldWords_of_rowOf (opc := 0x20) (by decide) (by decide) (by decide)
      fun w h => by simp [rowOf, h],
    fun _ => turnedAwayWhileBusy_of_ne nofun, fun _ =>
    ⟨exec_field_completing (f := .deg8) rfl, exec_field_completing (f := .deg16) rfl,
      fun h => gfMul_lt_of_getLsbD (by decide) h _ _,
      fun h => gfMul_lt_of_getLsbD (by decide) h _ _,
      exec_field_badfield (f := .deg8) rfl, exec_field_badfield (f := .deg16) rfl⟩⟩

/-- Settles O21: the words of opcode 0x21 and the check of the polynomial. -/
theorem gfInvInverts : Obligations.GfInvInverts :=
  ⟨fieldWords_of_rowOf (opc := 0x21) (by decide) (by decide) (by decide)
      fun w h => by simp [rowOf, h],
    fun _ => turnedAwayWhileBusy_of_ne nofun, fun _ =>
    ⟨exec_field_completing (f := .deg8) rfl, exec_field_completing (f := .deg16) rfl,
      exec_field_badfield (f := .deg8) rfl, exec_field_badfield (f := .deg16) rfl⟩⟩

/-- Settles O22: the words of opcode 0x22 and the check of the polynomial. -/
theorem gfOrderFindsOrder : Obligations.GfOrderFindsOrder :=
  ⟨fieldWords_of_rowOf (opc := 0x22) (by decide) (by decide) (by decide)
      fun w h => by simp [rowOf, h],
    fun _ => turnedAwayWhileBusy_of_ne nofun, fun _ =>
    ⟨exec_field_completing (f := .deg8) rfl, exec_field_completing (f := .deg16) rfl,
      exec_field_badfield (f := .deg8) rfl, exec_field_badfield (f := .deg16) rfl⟩⟩

end Sys2Proof.Proofs
end

section
/-! E as the rounds of 41_block_primitive.md R110, D as the same rounds undone in reverse order
(R111), and the statement that the two undo each other (R112). -/

namespace Sys2Proof.Machine

/-! ### Halves -/

@[simp] theorem halvesOf_joinHalves (h : Word × Word) : halvesOf (joinHalves h) = h :=
  Prod.ext BitVec.extractLsb'_append_eq_left BitVec.extractLsb'_append_eq_right

@[simp] theorem joinHalves_halvesOf (b : Block) : joinHalves (halvesOf b) = b := by
  ext j hj
  simp only [joinHalves, halvesOf]
  grind

/-! ### Rounds

Each direction undoes the other whatever the round function f is, "neither FO nor FL has to be
invertible" (R112). -/

theorem decRound_encRound (f : Word → Fin 8 → Word) (h : Word × Word) (r : Fin 8) :
    decRound f (encRound f h r) r = h := by
  simp [decRound, encRound]

theorem encRound_decRound (f : Word → Fin 8 → Word) (h : Word × Word) (r : Fin 8) :
    encRound f (decRound f h r) r = h := by
  simp [decRound, encRound]

/-- Steps that g undoes one by one are undone together by g in reverse order. -/
theorem foldl_reverse_foldl {α β : Type} {f g : α → β → α} (hgf : ∀ a b, g (f a b) b = a)
    (l : List β) (a : α) : l.reverse.foldl g (l.foldl f a) = a := by
  induction l generalizing a with
  | nil => rfl
  | cons b l ih =>
    rw [List.foldl_cons, List.reverse_cons, List.foldl_append, ih]
    exact hgf a b

/-- The halves (left, right) after the first n of E's rounds, from the halves h. -/
def halvesAfter (f : Word → Fin 8 → Word) (h : Word × Word) (n : Nat) : Word × Word :=
  ((List.finRange 8).take n).foldl (encRound f) h

theorem halvesAfter_succ (f : Word → Fin 8 → Word) (h : Word × Word) (r : Fin 8) :
    halvesAfter f h (r.val + 1) = encRound f (halvesAfter f h r.val) r := by
  have hr : r.val < (List.finRange 8).length := by simp
  simp [halvesAfter, List.take_succ_eq_append_getElem hr]

/-! ### E and D -/

theorem encryptBlock_eq_halvesAfter (ks : KeySchedule) (p16 : BitVec 17) (b : Block) :
    encryptBlock ks p16 b = joinHalves (halvesAfter (roundF ks p16) (halvesOf b) 8) := rfl

theorem decryptBlock_encryptBlock (ks : KeySchedule) (p16 : BitVec 17) (b : Block) :
    decryptBlock ks p16 (encryptBlock ks p16 b) = b := by
  simp only [decryptBlock, encryptBlock, halvesOf_joinHalves]
  rw [foldl_reverse_foldl (decRound_encRound _), joinHalves_halvesOf]

theorem encryptBlock_decryptBlock (ks : KeySchedule) (p16 : BitVec 17) (b : Block) :
    encryptBlock ks p16 (decryptBlock ks p16 b) = b := by
  have hundo := foldl_reverse_foldl (encRound_decRound (roundF ks p16))
    (List.finRange 8).reverse (halvesOf b)
  rw [List.reverse_reverse] at hundo
  simp only [decryptBlock, encryptBlock, halvesOf_joinHalves]
  rw [hundo, joinHalves_halvesOf]

end Sys2Proof.Machine

namespace Sys2Proof.Proofs

open Sys2Proof.Machine

/-- Settles O50: each round is undone for every round function, and the halves after each round are
those of `halvesAfter`. The round function the statement writes out is `roundF` by definition. -/
theorem decryptionUndoesEncryption : Obligations.DecryptionUndoesEncryption := fun ks p16 b =>
  ⟨decryptBlock_encryptBlock ks p16 b, encryptBlock_decryptBlock ks p16 b,
    fun n => (halvesAfter (roundF ks p16) (halvesOf b) n).1,
    fun n => (halvesAfter (roundF ks p16) (halvesOf b) n).2, rfl, rfl,
    fun r => Prod.ext_iff.1 (halvesAfter_succ (roundF ks p16) (halvesOf b) r),
    encryptBlock_eq_halvesAfter ks p16 b⟩

end Sys2Proof.Proofs
end

section
/-! The statements about the three block commands (41_block_primitive.md R114, R115, R116). -/

namespace Sys2Proof

open Sys2Proof.Safety

/-- Every bit of a word of format C but the opcode is reserved (30_encoding.md R78), so a command of
that format has one word. -/
theorem onlyWord_of_plain {i : Instr} {word : Word} (hi : encode i = word)
    (hopc : opcOf word ∈ plainOpcodes) : OnlyWord i word := by
  have hdec : decode word = .ok i := decode_eq_ok_iff_encode.2 hi
  refine ⟨hi, hdec, fun w hw hne => ?_⟩
  have hsame : opcOf w = opcOf word := hw
  have hplain : formatG (opcOf word) = false := by
    have not_formatG : ∀ opc ∈ plainOpcodes, formatG opc = false := by decide
    exact not_formatG _ hopc
  obtain ⟨j, hrow, hj⟩ := rowOf_of_assigned (w := w) (by simp [hsame, hopc])
  have hfields : j.fields = i.fields := by
    rw [hj, fields_of_rowOf (Machine.decode_eq_ok.1 hdec).1, hsame, hplain]
    rfl
  refine decode_eq_reservedBits hrow ?_
  rw [encode, hfields]
  exact fun h => hne (h.symm.trans hi)

end Sys2Proof

namespace Sys2Proof.Machine

open Sys2Proof.Safety

/-- KEY_LOAD's one check after BUSY and BADCMD (41_block_primitive.md R114). -/
theorem issueCheck_keyLoad_seq {s : State} (hs : s.session = true) :
    issueCheck .keyLoad s = some .seq := by
  simp [issueCheck, firstFailure, hs]

/-- The checks of a block command in their order (R115, R116). -/
theorem firstFailure_blockChecks (s : State) :
    firstFailure (blockChecks s) =
      if s.session then some .seq
      else if s.keyValid = false then some .nokey
      else if s.fpoly16.getLsbD 16 = false then some .badfield
      else none := by
  simp [blockChecks, firstFailure, State.polyValid]

/-- The three ordered rejections of a command whose checks are those of the block commands. -/
theorem exec_block_rejected {i : Instr} (hi : i ≠ .softReset) {s : State}
    (hc : issueCheck i s = firstFailure (blockChecks s)) :
    (Issuing s → s.session = true → exec i s = .next (rejected s .seq)) ∧
    (Issuing s → s.session = false → s.keyValid = false → exec i s = .next (rejected s .nokey)) ∧
    (Issuing s → s.session = false → s.keyValid = true → s.fpoly16.getLsbD 16 = false →
      exec i s = .next (rejected s .badfield)) := by
  rw [firstFailure_blockChecks] at hc
  refine ⟨fun h hs => ?_, fun h hs hk => ?_, fun h hs hk hv => ?_⟩
  · exact exec_of_issueCheck hi h (by rw [hc, hs]; rfl)
  · exact exec_of_issueCheck hi h (by rw [hc, hs, hk]; rfl)
  · exact exec_of_issueCheck hi h (by rw [hc, hs, hk, hv]; rfl)

end Sys2Proof.Machine

namespace Sys2Proof.Proofs

open Sys2Proof.Machine Sys2Proof.Safety

/-- Settles O12: KEY_LOAD's checks name no polynomial, and its effect does not depend on PENDING. -/
theorem keyLoadHoldsSchedule : Obligations.KeyLoadHoldsSchedule :=
  ⟨onlyWord_of_plain (by decide) (by decide), turnedAwayWhileBusy_of_ne nofun, fun _ =>
    ⟨exec_of_completing (i := .keyLoad) nofun rfl,
      fun h hs => exec_of_issueCheck (i := .keyLoad) nofun h (issueCheck_keyLoad_seq hs)⟩⟩

/-- Settles O13: E of the held schedule goes to DOUT, after the checks of a block command. -/
theorem encBlockEnciphersDin : Obligations.EncBlockEnciphersDin :=
  ⟨onlyWord_of_plain (by decide) (by decide), turnedAwayWhileBusy_of_ne nofun, fun _ =>
    ⟨exec_of_completing (i := .encBlock) nofun rfl, exec_block_rejected (i := .encBlock) nofun rfl⟩⟩

/-- Settles O14: D of the held schedule goes to DOUT, after the checks of a block command. -/
theorem decBlockDeciphersDin : Obligations.DecBlockDeciphersDin :=
  ⟨onlyWord_of_plain (by decide) (by decide), turnedAwayWhileBusy_of_ne nofun, fun _ =>
    ⟨exec_of_completing (i := .decBlock) nofun rfl, exec_block_rejected (i := .decBlock) nofun rfl⟩⟩

end Sys2Proof.Proofs
end

section
/-! The statements about the adapter: its two byte ports (42_adapter.md R120, R123) and its three
commands (R121, R122, R125). -/

namespace Sys2Proof.Machine

open Sys2Proof.Safety

/-! ### Accesses with no command in flight -/

theorem State.busWriteReg_unlocked {s : State} (hb : s.busy = false) {r : Reg}
    (hr : r.locked = false) (v : Word) : s.busWriteReg r v = s.writeReg v r := by
  simp [State.busWriteReg, hb, hr]

/-- With no command in flight a write to a register that is never locked takes effect, in a session
or not (20_memory.md R62). -/
theorem serves_write_unlocked {s t : State} {v : Word} {r : Reg} (hp : s.pending = none)
    (hw : r.rejectsWhileBusy = true) (hl : r.locked = false)
    (h : ∀ (rest : List Input) (k : Turn),
      (s.accessed rest k).writeReg v r = { t with inputs := rest, turn := k }) :
    Serves s (writeAt r.offset v) t := by
  obtain ⟨hro, hcmd, -⟩ := r.rejectsWhileBusy_iff.1 hw
  exact serves_write r hro hcmd fun rest k =>
    (State.busWriteReg_unlocked (State.not_busy_accessed hp rest k) hl v).trans (h rest k)

/-- With no command in flight a read of a readable register is that register's own read
(20_memory.md R61). -/
theorem serves_read_idle {s t : State} {r : Reg} (hp : s.pending = none) (hr : r.writeOnly = false)
    (h : ∀ (rest : List Input) (k : Turn),
      (s.accessed rest k).readReg r = { t with inputs := rest, turn := k }) :
    Serves s (readAt r.offset) t := by
  refine serves_read r fun rest k => ?_
  rw [State.busRead_offset, ← h rest k]
  simp only [State.not_busy_accessed hp, hr, Bool.false_and, Bool.false_eq_true, if_false]

/-! ### The byte ports -/

theorem State.byteIn_of_lt {s : State} (h : s.segCnt.val < 8) (v : Byte) :
    s.byteIn v = { s with
      segbuf := s.segbuf ||| byteAt v s.segCnt.val, segCnt := ⟨s.segCnt.val + 1, by omega⟩ } :=
  dif_pos h

theorem State.byteIn_full {s : State} (h : s.segCnt.val = 8) (v : Byte) :
    s.byteIn v = s.reject .segfull :=
  dif_neg (by omega)

theorem State.byteOut_of_lt {s : State} (h : s.rsmIdx.val < 8) :
    s.byteOut = { s with
      rdata := (blockByte s.dout s.rsmIdx.val).setWidth 32
      rsmIdx := ⟨s.rsmIdx.val + 1, by omega⟩ } :=
  dif_pos h

theorem State.byteOut_done {s : State} (h : s.rsmIdx.val = 8) : s.byteOut = s.respond 0 :=
  dif_neg (by omega)

/-! ### The adapter's commands -/

/-- SEG_POP's one check after BUSY and BADCMD: the segmenter holds a byte (42_adapter.md R121). -/
theorem issueCheck_segPop_seq {s : State} (h : s.segCnt = 0) : issueCheck .segPop s = some .seq := by
  simp [issueCheck, firstFailure, h]

/-- DIN takes SEGBUF whole, its zero padding with it (42_adapter.md R121). -/
theorem segPopEffect_padded {s : State} (h : SegmenterPadded s) (j : Nat) (hj : s.segCnt.val ≤ j)
    (hj8 : j < 8) : blockByte (segPopEffect s).complete.din j = 0 :=
  h j hj hj8

/-- SEG_POP completes alike in the engine's turn and as it is issued. -/
theorem exec_segPop_completing {s : State} (h : Completing s (s.segCnt ≠ 0)) :
    exec .segPop s = .next (segPopEffect s).complete :=
  exec_of_completing (i := .segPop) nofun rfl h

end Sys2Proof.Machine

namespace Sys2Proof.Proofs

open Sys2Proof.Machine Sys2Proof.Safety

/-- Settles O23: SEG_POP's one check, its effect, and the padding that DIN takes over. -/
theorem segPopMovesBlock : Obligations.SegPopMovesBlock :=
  ⟨onlyWord_of_plain (by decide) (by decide), turnedAwayWhileBusy_of_ne nofun, fun _ =>
    ⟨exec_segPop_completing,
      fun h hpad => ⟨_, exec_segPop_completing h, segPopEffect_padded hpad⟩,
      fun h hcnt => exec_of_issueCheck (i := .segPop) nofun h (issueCheck_segPop_seq hcnt)⟩⟩

/-- Settles O24: SEG_CLEAR makes no check of its own. -/
theorem segClearEmptiesSegmenter : Obligations.SegClearEmptiesSegmenter :=
  ⟨onlyWord_of_plain (by decide) (by decide), turnedAwayWhileBusy_of_ne nofun, fun _ =>
    exec_of_completing (i := .segClear) nofun rfl⟩

/-- Settles O25: RSM_REWIND makes no check of its own. -/
theorem rsmRewindRestarts : Obligations.RsmRewindRestarts :=
  ⟨onlyWord_of_plain (by decide) (by decide), turnedAwayWhileBusy_of_ne nofun, fun _ =>
    exec_of_completing (i := .rsmRewind) nofun rfl⟩

/-- Settles O37: BYTE_IN is never locked, so the write meets BUSY and then the segmenter's own check
of its eight positions. -/
theorem byteInAppends : Obligations.ByteInAppends := by
  refine fun s v => ⟨fun hp hcnt => ?_, fun hp hcnt => ?_, fun hp => ?_⟩
  · exact serves_write_unlocked (r := .byteIn) hp rfl rfl fun rest k =>
      State.byteIn_of_lt (s := s.accessed rest k) hcnt _
  · exact serves_write_unlocked (r := .byteIn) hp rfl rfl fun rest k =>
      State.byteIn_full (s := s.accessed rest k) hcnt _
  · exact serves_write_busy (r := .byteIn) hp rfl v

/-- Settles O38: with no command in flight the read is the reassembler's, below eight and past it;
while one is, BYTE_OUT is a result register. -/
theorem byteOutAdvances : Obligations.ByteOutAdvances := by
  refine fun s => ⟨fun hp hidx => ?_, fun hp hidx => ?_, fun hp => ?_⟩
  · exact serves_read_idle (r := .byteOut) hp rfl fun rest k =>
      State.byteOut_of_lt (s := s.accessed rest k) hidx
  · exact serves_read_idle (r := .byteOut) hp rfl fun rest k =>
      State.byteOut_done (s := s.accessed rest k) hidx
  · exact ⟨_, serves_read_result_busy (r := .byteOut) hp rfl⟩

end Sys2Proof.Proofs
end

section
/-! The statements about the four session commands (43_modes.md R132 to R135) and about the step of
each mode (R136 to R146). -/

namespace Sys2Proof.Machine

open Sys2Proof.Safety

/-! ### Tags -/

/-- A product modulo a valid polynomial of n + 1 bits is below 2^n (40_field_engine.md R94). -/
theorem tmul_toNat_lt {n : Nat} {p : BitVec (n + 1)} (hn : 1 ≤ n) (h : p.getLsbD n = true)
    (a b : Block) : (tmul a b p.toNat).toNat < 2 ^ n := by
  have hdeg := deg_of_getLsbD h
  have hlt := pmod_lt (hn.trans_eq hdeg.symm) (clmul a.toNat b.toNat)
  rw [hdeg] at hlt
  rw [tmul, BitVec.toNat_ofNat]
  exact (Nat.mod_le _ _).trans_lt hlt

/-- With a valid tag polynomial of either degree a tag product is below 2^16. -/
theorem tmul_tagPoly_toNat_lt {s : State} (h16 : s.fpoly16.getLsbD 16 = true)
    (h8 : s.ctrl.getLsbD 4 = true → s.fpoly8.getLsbD 8 = true) (a b : Block) :
    (tmul a b s.tagPoly).toNat < 2 ^ 16 := by
  rw [State.tagPoly_eq]
  cases hc : s.ctrl.getLsbD 4 with
  | false => exact tmul_toNat_lt (by decide) h16 a b
  | true => exact (tmul_toNat_lt (by decide) (h8 hc) a b).trans (by decide)

/-- XOR with a word below 2^16 leaves bits 63:16. -/
theorem extractLsb'_xor_of_lt {a : Block} (ha : a.toNat < 2 ^ 16) (b : Block) :
    (a ^^^ b).extractLsb' 16 48 = b.extractLsb' 16 48 := by
  have hhigh : a.extractLsb' 16 48 = 0 := BitVec.eq_of_toNat_eq <| by
    rw [BitVec.extractLsb'_toNat, Nat.shiftRight_eq_div_pow, Nat.div_eq_of_lt ha]
    rfl
  rw [BitVec.extractLsb'_xor, hhigh]
  exact BitVec.zero_xor

/-! ### The step of each mode -/

section Modes

variable {s : State} (x i : Block)

theorem State.mode_of_bits {m : BitVec 3} (h : s.ctrl.extractLsb' 0 3 = m) :
    s.mode = Mode.ofBits m :=
  congrArg Mode.ofBits h

theorem State.modeStep_ecb (h : s.ctrl.extractLsb' 0 3 = 0) : s.modeStep x i = ecbStep s x := by
  unfold State.modeStep; rw [State.mode_of_bits h]; rfl

theorem State.modeStep_cbc (h : s.ctrl.extractLsb' 0 3 = 1) : s.modeStep x i = cbcStep s x := by
  unfold State.modeStep; rw [State.mode_of_bits h]; rfl

theorem State.modeStep_pcbc (h : s.ctrl.extractLsb' 0 3 = 2) : s.modeStep x i = pcbcStep s x := by
  unfold State.modeStep; rw [State.mode_of_bits h]; rfl

theorem State.modeStep_cfb (h : s.ctrl.extractLsb' 0 3 = 3) : s.modeStep x i = cfbStep s x := by
  unfold State.modeStep; rw [State.mode_of_bits h]; rfl

theorem State.modeStep_ofb (h : s.ctrl.extractLsb' 0 3 = 4) : s.modeStep x i = ofbStep s x := by
  unfold State.modeStep; rw [State.mode_of_bits h]; rfl

theorem State.modeStep_ctr (h : s.ctrl.extractLsb' 0 3 = 5) : s.modeStep x i = ctrStep s x i := by
  unfold State.modeStep; rw [State.mode_of_bits h]; rfl

theorem State.modeStep_gcm (h : s.ctrl.extractLsb' 0 3 = 6) : s.modeStep x i = gcmStep s x i := by
  unfold State.modeStep; rw [State.mode_of_bits h]; rfl

theorem ecbStep_eq :
    ecbStep s x =
      ⟨if s.ctrl.getLsbD 3 then s.decryption x else s.encryption x, s.chain, s.tagacc⟩ := by
  unfold ecbStep State.dir
  cases s.ctrl.getLsbD 3 <;> rfl

theorem cbcStep_encrypt (hd : s.ctrl.getLsbD 3 = false) :
    cbcStep s x = ⟨s.encryption (x ^^^ s.chain), s.encryption (x ^^^ s.chain), s.tagacc⟩ := by
  unfold cbcStep; rw [State.dir_of_clear hd]

theorem cbcStep_decrypt (hd : s.ctrl.getLsbD 3 = true) :
    cbcStep s x = ⟨s.decryption x ^^^ s.chain, x, s.tagacc⟩ := by
  unfold cbcStep; rw [State.dir_of_set hd]

theorem pcbcStep_encrypt (hd : s.ctrl.getLsbD 3 = false) :
    pcbcStep s x =
      ⟨s.encryption (x ^^^ s.chain), s.encryption (x ^^^ s.chain) ^^^ x, s.tagacc⟩ := by
  unfold pcbcStep; rw [State.dir_of_clear hd]

theorem pcbcStep_decrypt (hd : s.ctrl.getLsbD 3 = true) :
    pcbcStep s x =
      ⟨s.decryption x ^^^ s.chain, x ^^^ (s.decryption x ^^^ s.chain), s.tagacc⟩ := by
  unfold pcbcStep; rw [State.dir_of_set hd]

theorem cfbStep_encrypt (hd : s.ctrl.getLsbD 3 = false) :
    cfbStep s x = ⟨s.encryption s.chain ^^^ x, s.encryption s.chain ^^^ x, s.tagacc⟩ := by
  unfold cfbStep; rw [State.dir_of_clear hd]

theorem cfbStep_decrypt (hd : s.ctrl.getLsbD 3 = true) :
    cfbStep s x = ⟨s.encryption s.chain ^^^ x, x, s.tagacc⟩ := by
  unfold cfbStep; rw [State.dir_of_set hd]

/-- The block the tag takes in is the output when encrypting (R145). -/
theorem gcmStep_encrypt (hd : s.ctrl.getLsbD 3 = false) :
    gcmStep s x i =
      ⟨s.encryption (s.iv + i + 1) ^^^ x, s.chain,
        tmul (s.tagacc ^^^ (s.encryption (s.iv + i + 1) ^^^ x)) s.hsub s.tagPoly⟩ := by
  unfold gcmStep; rw [State.dir_of_clear hd]

/-- The block the tag takes in is the input when decrypting (R146). -/
theorem gcmStep_decrypt (hd : s.ctrl.getLsbD 3 = true) :
    gcmStep s x i =
      ⟨s.encryption (s.iv + i + 1) ^^^ x, s.chain, tmul (s.tagacc ^^^ x) s.hsub s.tagPoly⟩ := by
  unfold gcmStep; rw [State.dir_of_set hd]

/-- In the authenticated mode the new TAGACC is a product modulo the tag polynomial, so it is
below 2^n when that polynomial is a valid one of n + 1 bits. -/
theorem State.modeStep_gcm_tagacc_lt {n : Nat} {p : BitVec (n + 1)}
    (h : s.ctrl.extractLsb' 0 3 = 6) (hp : s.tagPoly = p.toNat) (hn : 1 ≤ n)
    (hv : p.getLsbD n = true) : (s.modeStep x i).tagacc.toNat < 2 ^ n := by
  rw [State.modeStep_gcm x i h, gcmStep, hp]
  exact tmul_toNat_lt hn hv _ _

end Modes

/-! ### The session commands -/

/-- A command whose effect makes t of s and leaves PENDING as it finds it completes with t. -/
theorem exec_completing_eq {i : Instr} (hi : i ≠ .softReset) {s t : State}
    (h : Completing s (Admissible i s))
    (ht : ∀ p, commandEffect i { s with pending := p } = { t with pending := p }) :
    exec i s = .next (completed t) := by
  have hcomplete : ∀ p, (commandEffect i { s with pending := p }).complete = completed t :=
    fun p => by rw [ht p]; rfl
  rw [exec_of_completing hi ((hcomplete (some i)).trans (hcomplete s.pending).symm) h]
  exact congrArg Host.Outcome.next (hcomplete s.pending)

/-- START's checks after BUSY and BADCMD in their order (43_modes.md R132). -/
theorem issueCheck_start (s : State) :
    issueCheck .start s =
      if s.session then some .seq
      else if s.keyValid = false then some .nokey
      else if s.fpoly16.getLsbD 16 = false ∨ (s.ctrl.extractLsb' 0 3 = 6 ∧
          s.ctrl.getLsbD 4 = true ∧ s.fpoly8.getLsbD 8 = false) then some .badfield
      else if s.ctrl.extractLsb' 0 3 = 7 then some .badmode
      else none := by
  have hfield : (!s.polyValid .deg16 || (s.mode == .gcm && !s.polyValid s.tagField)) = true ↔
      s.fpoly16.getLsbD 16 = false ∨ (s.ctrl.extractLsb' 0 3 = 6 ∧
        s.ctrl.getLsbD 4 = true ∧ s.fpoly8.getLsbD 8 = false) := by
    cases hv : s.fpoly16.getLsbD 16 with
    | false => simp [show s.polyValid .deg16 = false from hv]
    | true =>
      rw [← State.tagField_valid s hv, ← State.mode_eq_gcm]
      simp [show s.polyValid .deg16 = true from hv]
  simp only [issueCheck, startChecks, firstFailure, hfield, Bool.not_eq_true', beq_iff_eq,
    State.mode_eq_reserved]

/-- PROCESS's one check after BUSY and BADCMD (43_modes.md R133). -/
theorem issueCheck_process_seq {s : State} (h : s.session = false ∨ s.blkidx = s.msglen) :
    issueCheck .process s = some .seq := by
  obtain h | h := h <;> simp [issueCheck, firstFailure, h]

/-- FINAL's one check after BUSY and BADCMD (43_modes.md R134). -/
theorem issueCheck_final_seq {s : State} (h : s.session = false ∨ s.blkidx ≠ s.msglen) :
    issueCheck .final s = some .seq := by
  obtain h | h := h <;> simp [issueCheck, firstFailure, h]

end Sys2Proof.Machine

namespace Sys2Proof.Proofs

open Sys2Proof.Machine Sys2Proof.Safety

/-- Settles O15: START's effect in mode 6 and outside it, and its checks in order. -/
theorem startOpensSession : Obligations.StartOpensSession := by
  refine ⟨onlyWord_of_plain (by decide) (by decide), turnedAwayWhileBusy_of_ne nofun, fun s =>
    ⟨fun h hm => ?_, fun h hm => ?_, fun h hs => ?_, fun h hs hk => ?_, fun h hs hk hf => ?_,
      fun h hs hk hv hm => ?_⟩⟩
  · exact exec_completing_eq (i := .start) nofun h fun p =>
      startEffect_plain (s := { s with pending := p }) hm
  · exact exec_completing_eq (i := .start) nofun h fun p =>
      startEffect_gcm (s := { s with pending := p }) hm
  · exact exec_of_issueCheck (i := .start) nofun h (by rw [issueCheck_start, hs]; rfl)
  · exact exec_of_issueCheck (i := .start) nofun h (by rw [issueCheck_start, hs, hk]; rfl)
  · exact exec_of_issueCheck (i := .start) nofun h
      (by rw [issueCheck_start, hs, hk, if_pos hf]; rfl)
  · exact exec_of_issueCheck (i := .start) nofun h (issueCheck_start_reserved hs hk hv hm)

/-- Settles O16: what PROCESS does once its step is known; the step does not see PENDING. -/
theorem processTransformsBlock : Obligations.ProcessTransformsBlock := by
  refine ⟨onlyWord_of_plain (by decide) (by decide), turnedAwayWhileBusy_of_ne nofun, fun s =>
    ⟨fun h hm => ?_, fun h hseq => ?_⟩⟩
  · exact exec_completing_eq (i := .process) nofun h fun p =>
      processEffect_eq (s := { s with pending := p }) hm
  · exact exec_of_issueCheck (i := .process) nofun h (issueCheck_process_seq hseq)

/-- Settles O17: MODE picks the step and DIR its direction; the tag is a residue of the tag
polynomial, so its width is that polynomial's degree. -/
theorem stepOfEachMode : Obligations.StepOfEachMode := by
  intro s x i
  dsimp only
  rw [← s.tagPoly_eq]
  refine ⟨fun h => ?_, fun h hd => ?_, fun h hd => ?_, fun h hd => ?_, fun h hd => ?_,
    fun h hd => ?_, fun h hd => ?_, fun h => ?_, fun h => ?_, fun h hd => ?_, fun h hd => ?_,
    fun h hf hv => ?_, fun h hf hv => ?_⟩
  · exact (State.modeStep_ecb x i h).trans (ecbStep_eq x)
  · exact (State.modeStep_cbc x i h).trans (cbcStep_encrypt x hd)
  · exact (State.modeStep_cbc x i h).trans (cbcStep_decrypt x hd)
  · exact (State.modeStep_pcbc x i h).trans (pcbcStep_encrypt x hd)
  · exact (State.modeStep_pcbc x i h).trans (pcbcStep_decrypt x hd)
  · exact (State.modeStep_cfb x i h).trans (cfbStep_encrypt x hd)
  · exact (State.modeStep_cfb x i h).trans (cfbStep_decrypt x hd)
  · exact State.modeStep_ofb x i h
  · exact State.modeStep_ctr x i h
  · exact (State.modeStep_gcm x i h).trans (gcmStep_encrypt x i hd)
  · exact (State.modeStep_gcm x i h).trans (gcmStep_decrypt x i hd)
  · exact State.modeStep_gcm_tagacc_lt x i h (by rw [s.tagPoly_eq, hf]; rfl) (by decide) hv
  · exact State.modeStep_gcm_tagacc_lt x i h (by rw [s.tagPoly_eq, hf]; rfl) (by decide) hv

/-- Settles O18: FINAL's effect by mode, direction and verdict, its one check, and the tag's bits
above the degree of the tag polynomial. -/
theorem finalClosesSession : Obligations.FinalClosesSession := by
  refine ⟨onlyWord_of_plain (by decide) (by decide), turnedAwayWhileBusy_of_ne nofun, fun s => ?_⟩
  dsimp only
  rw [← s.tagPoly_eq]
  refine ⟨fun h hm => ?_, fun h hm hd => ?_, fun h hm hd ht => ?_, fun h hm hd ht => ?_,
    fun h hseq => ?_, fun h16 h8 => ?_⟩
  · exact exec_completing_eq (i := .final) nofun h fun p =>
      finalEffect_plain (s := { s with pending := p }) hm
  · exact exec_completing_eq (i := .final) nofun h fun p =>
      finalEffect_tag (s := { s with pending := p }) hm hd
  · exact exec_completing_eq (i := .final) nofun h fun p =>
      finalEffect_match (s := { s with pending := p }) hm hd ht
  · exact exec_completing_eq (i := .final) nofun h fun p =>
      finalEffect_mismatch (s := { s with pending := p }) hm hd ht
  · exact exec_of_issueCheck (i := .final) nofun h (issueCheck_final_seq hseq)
  · exact extractLsb'_xor_of_lt (tmul_tagPoly_toNat_lt h16 h8 _ _) _

/-- Settles O19: ABORT makes no check of its own. -/
theorem abortDropsSession : Obligations.AbortDropsSession :=
  ⟨onlyWord_of_plain (by decide) (by decide), turnedAwayWhileBusy_of_ne nofun, fun _ =>
    exec_of_completing (i := .abort) nofun rfl⟩

end Sys2Proof.Proofs
end

section
/-! The statements about the two control commands (44_control.md R154, R155). -/

namespace Sys2Proof.Machine

open Sys2Proof.Safety

/-! ### Acceptance -/

/-- In the host's turn, with nothing in flight, a command that passes its checks is in flight and does
no more (60_exceptions.md R164, R165). -/
theorem exec_of_admissible {i : Instr} (hi : i ≠ .softReset) {s : State} (ht : s.turn = .host)
    (hp : s.pending = none) (ha : Admissible i s) :
    exec i s = .next { s with pending := some i } := by
  have hf : s.failingCheck i = none := (s.failingCheck_eq_none i).2 ⟨hp, ha⟩
  exact (exec_eq_command i hi s).trans (State.command_accepted ht hf _)

/-! ### Reset -/

/-- The elements R180 gives a value have it; KEYMOD_C, which is no state, stays
(70_reset_and_hazards.md R180). -/
theorem resetFrom_resetCore (s : State) : ResetFrom s s.resetCore := rfl

/-- A hardware reset with no access inside it uses up its move and resets the core
(70_reset_and_hazards.md R179). -/
theorem step_hwReset (s : State) (rest : List Input) :
    step { s with inputs := .hwReset none :: rest } =
      .next { s.resetCore with inputs := rest } :=
  step_cons (s := { s with inputs := .hwReset none :: rest }) rfl

end Sys2Proof.Machine

namespace Sys2Proof.Proofs

open Sys2Proof.Machine Sys2Proof.Safety

/-- Settles O9: NOP makes no check of its own, and its effect at completion is the identity. -/
theorem nopOnlyCompletes : Obligations.NopOnlyCompletes := by
  refine ⟨onlyWord_of_plain (by decide) (by decide), turnedAwayWhileBusy_of_ne nofun, fun s =>
    ⟨fun ht hp => ?_, fun h => ?_⟩⟩
  · exact exec_of_admissible (i := .nop) nofun ht hp trivial
  · exact exec_of_completing (i := .nop) nofun rfl h

/-- Settles O10: SOFT_RESET and a hardware reset both leave `State.resetCore`, in every state and
whatever is in flight. -/
theorem softResetGivesResetState : Obligations.SoftResetGivesResetState := by
  refine ⟨onlyWord_of_plain (by decide) (by decide), fun s => ⟨s.resetCore, ?_⟩⟩
  exact ⟨exec_softReset s, resetFrom_resetCore s, s.resetCore_turn, s.resetCore_inputs,
    s.resetCore_free, step_hwReset s⟩

end Sys2Proof.Proofs
end

section
/-! The statement about the host's acknowledgement (60_exceptions.md R171). -/

namespace Sys2Proof.Proofs

open Sys2Proof.Machine Sys2Proof.Safety

/-- Settles O33: IRQ_STAT, ERRCODE and IRQ_EN are exempt from the BUSY check and none of them is locked
in a session, so a write to one of them always takes its effect. -/
theorem hostAcknowledges : Obligations.HostAcknowledges := by
  intro s v
  refine ⟨?irqStat, ?errcode, ?irqEn⟩
  case irqStat => exact serves_write_exempt (r := .irqStat) rfl fun _ _ => rfl
  case errcode => exact serves_write_exempt (r := .errcode) rfl fun _ _ => rfl
  case irqEn => exact serves_write_exempt (r := .irqEn) rfl fun _ _ => rfl

end Sys2Proof.Proofs
end

section
/-! The words of the opcode map one by one, and the agreement of decoder and encoder
(30_encoding.md R77, R81, R82). -/

namespace Sys2Proof

/-- Every command's fields pass the three checks of R78, R79 and R81. -/
theorem Instr.wellFormed_eq_true (i : Instr) : i.wellFormed = true := by
  have hall : ∀ j ∈ Instr.all, j.wellFormed = true := by decide
  exact hall i i.mem_all

/-- The byte lanes of a word, joined again, are the word (30_encoding.md R77; 20_memory.md R63). -/
theorem decodeBytes_lanesOf (w : Word) : decodeBytes (lanesOf w) = decode w := by
  have hjoin :
      w.extractLsb' 24 8 ++ w.extractLsb' 16 8 ++ w.extractLsb' 8 8 ++ w.extractLsb' 0 8 = w := by
    ext j hj
    simp only [BitVec.getElem_append, BitVec.getElem_extractLsb']
    grind
  exact congrArg decode hjoin

end Sys2Proof

namespace Sys2Proof.Proofs

/-- Settles O2: the bytes of a word are read as the word, and decoder and encoder undo each other on
the legal words. -/
theorem decodeEncodeAgree : Obligations.DecodeEncodeAgree :=
  ⟨fun i => ⟨i.wellFormed_eq_true, decode_encode i,
      (decodeBytes_lanesOf (encode i)).trans (decode_encode i)⟩,
    fun _ _ => encode_eq_of_decode⟩

/-- Settles O1: each word is the encoding of its row's command. -/
theorem assignedWordsDecode : Obligations.AssignedWordsDecode := by
  have row : ∀ {w : Word} {i : Instr}, encode i = w → decode w = .ok i := decode_eq_ok_iff_encode.2
  exact ⟨row rfl, row rfl, row rfl, row rfl, row rfl, row rfl, row rfl, row rfl, row rfl, row rfl,
    row rfl, row rfl, row rfl, row rfl, row rfl, row rfl, row rfl, row rfl⟩

end Sys2Proof.Proofs
end

section
/-! The core's invariant: what each access, completion and reset makes of it, and the statements
that it holds after reset and that every step keeps it. -/

namespace Sys2Proof.Machine

open Sys2Proof.Safety

/-! ### What the invariant does not see -/

/-- The invariant names neither the port and its log, nor the error and interrupt registers, nor the
registers that no check reads. -/
theorem inv_of_frame {s t : State} (h : Inv s)
    (ht : t = { s with
      errcode := t.errcode, irqEn := t.irqEn, irqStat := t.irqStat, din := t.din, dout := t.dout,
      siglen := t.siglen, fgen8 := t.fgen8, fgen16 := t.fgen16, gfA := t.gfA, gfB := t.gfB,
      gfR := t.gfR, ksidx := t.ksidx, sboxIdx := t.sboxIdx, inv0 := t.inv0, rsmIdx := t.rsmIdx,
      chain := t.chain, rdata := t.rdata, slverr := t.slverr, free := t.free, turn := t.turn,
      inputs := t.inputs }) : Inv t := by
  have hpending : ∀ i, Admissible i s → Admissible i t := by
    rw [ht]
    intro i hi
    cases i with
    | gfMul f => cases f <;> exact hi
    | gfInv f => cases f <;> exact hi
    | gfOrder f => cases f <;> exact hi
    | _ => exact hi
  have hsame : t.pending = s.pending := by rw [ht]
  refine ⟨?_, ?_, fun i hi => ?_, ?_, ?_, ?_⟩
  · rw [ht]; exact h.segmenter
  · rw [ht]; exact h.schedule
  · obtain ⟨hne, hadm⟩ := h.pending i (hsame ▸ hi)
    exact ⟨hne, hpending i hadm⟩
  · rw [ht]; exact h.session
  · rw [ht]; exact h.verdict
  · rw [ht]; exact h.authenticated

/-- With no command in flight there are no checks of one left to hold. -/
theorem inv_of_idle {s : State} (hp : s.pending = none) (hseg : SegmenterPadded s)
    (hsched : ScheduleCurrent s) (hses : SessionReady s) (hver : VerdictHasCheck s)
    (hauth : AuthenticatedStateHeld s) : Inv s where
  segmenter := hseg
  schedule := hsched
  pending := fun i hi => by cases hp.symm.trans hi
  session := hses
  verdict := hver
  authenticated := hauth

/-- With no session open either, three parts of the invariant are left. -/
theorem inv_of_closed {s : State} (hp : s.pending = none) (hs : s.session = false)
    (hseg : SegmenterPadded s) (hsched : ScheduleCurrent s) (hver : VerdictHasCheck s) : Inv s :=
  inv_of_idle hp hseg hsched (fun h => by cases hs.symm.trans h) hver
    fun h => by cases hs.symm.trans h

/-- An empty segmenter is padded. -/
theorem segmenterPadded_of_zero {s : State} (h : s.segbuf = 0) : SegmenterPadded s :=
  fun j _ _ => by
    rw [h]
    exact BitVec.extractLsb'_zero

/-- Every element that the invariant names is 0 after a reset (70_reset_and_hazards.md R180). -/
theorem inv_resetCore (s : State) : Inv s.resetCore :=
  inv_of_closed rfl rfl (segmenterPadded_of_zero rfl) nofun nofun

/-! ### Completion -/

/-- A completion keeps the invariant that a command's effect kept. -/
theorem inv_complete {s : State} (h : Inv s) : Inv s.complete :=
  inv_of_idle rfl h.segmenter h.schedule h.session h.verdict h.authenticated

/-- START's checks are what a session needs, and START computes HSUB and ZBLK in mode 6
(43_modes.md R132). -/
theorem inv_start {s : State} (h : Inv s) (ha : Admissible .start s) :
    Inv (startEffect s).complete := by
  obtain ⟨-, hkey, hp16, htag, hmode⟩ := ha
  have hready : s.keyValid = true ∧ s.fpoly16.getLsbD 16 = true ∧ s.ctrl.extractLsb' 0 3 ≠ 7 ∧
      ¬ (s.ctrl.extractLsb' 0 3 = 6 ∧ s.ctrl.getLsbD 4 = true ∧ s.fpoly8.getLsbD 8 = false) ∧
      (0 : Block) ≤ s.msglen := ⟨hkey, hp16, hmode, htag, by bv_omega⟩
  by_cases hm : s.ctrl.extractLsb' 0 3 = 6
  · rw [startEffect_gcm hm]
    exact inv_of_idle rfl h.segmenter h.schedule (fun _ => hready) nofun
      fun _ _ => ⟨rfl, rfl, Nat.two_pow_pos _⟩
  · rw [startEffect_plain hm]
    exact inv_of_idle rfl h.segmenter h.schedule (fun _ => hready) nofun fun _ h6 => absurd h6 hm

/-- The tag accumulator of a step in mode 6 fits the tag field that START checked. -/
theorem modeStep_tagacc_lt {s : State} (hp16 : s.fpoly16.getLsbD 16 = true)
    (htag : ¬ (s.ctrl.extractLsb' 0 3 = 6 ∧ s.ctrl.getLsbD 4 = true ∧ s.fpoly8.getLsbD 8 = false))
    (hm : s.ctrl.extractLsb' 0 3 = 6) (x i : Block) :
    (s.modeStep x i).tagacc.toNat < 2 ^ (if s.ctrl.getLsbD 4 then 8 else 16) := by
  cases hf : s.ctrl.getLsbD 4 with
  | false =>
    exact State.modeStep_gcm_tagacc_lt x i hm (by rw [s.tagPoly_eq, hf]; rfl) (by decide) hp16
  | true =>
    have hp8 : s.fpoly8.getLsbD 8 = true := by simpa [hm, hf] using htag
    exact State.modeStep_gcm_tagacc_lt x i hm (by rw [s.tagPoly_eq, hf]; rfl) (by decide) hp8

/-- PROCESS does a block that MSGLEN allows (43_modes.md R133). -/
theorem inv_process {s : State} (h : Inv s) (ha : Admissible .process s) :
    Inv (processEffect s).complete := by
  obtain ⟨hs, hne⟩ := ha
  obtain ⟨hkey, hp16, hmode, htag, hle⟩ := h.session hs
  have hnext : s.blkidx + 1 ≤ s.msglen := by bv_omega
  rw [processEffect_eq hmode]
  refine inv_of_idle rfl h.segmenter h.schedule (fun _ => ⟨hkey, hp16, hmode, htag, hnext⟩)
    h.verdict fun _ h6 => ?_
  obtain ⟨hh, hz, -⟩ := h.authenticated hs h6
  exact ⟨hh, hz, modeStep_tagacc_lt hp16 htag h6 _ _⟩

/-- With the session closed, a verdict is left of the invariant's parts on sessions. -/
theorem inv_final {s : State} (h : Inv s) : Inv (finalEffect s).complete := by
  by_cases hm : s.ctrl.extractLsb' 0 3 = 6
  · cases hd : s.ctrl.getLsbD 3 with
    | false =>
      rw [finalEffect_tag hm hd]
      exact inv_of_idle rfl h.segmenter h.schedule nofun h.verdict nofun
    | true =>
      by_cases ht : s.finalTag = s.din
      · rw [finalEffect_match hm hd ht]
        exact inv_of_idle rfl h.segmenter h.schedule nofun (fun _ => rfl) nofun
      · rw [finalEffect_mismatch hm hd ht]
        exact inv_of_idle rfl h.segmenter h.schedule nofun nofun nofun
  · rw [finalEffect_plain hm]
    exact inv_of_idle rfl h.segmenter h.schedule nofun h.verdict nofun

/-- The completion of an accepted command keeps the invariant. -/
theorem inv_effect {s : State} (h : Inv s) {i : Instr} (ha : Admissible i s) :
    Inv (commandEffect i s).complete := by
  cases i with
  | nop => exact inv_complete h
  | keyLoad =>
    have hs : s.session = false := ha
    exact inv_of_closed rfl hs h.segmenter (fun _ => rfl) h.verdict
  | encBlock => exact inv_complete (inv_of_frame h (t := encBlockEffect s) rfl)
  | decBlock => exact inv_complete (inv_of_frame h (t := decBlockEffect s) rfl)
  | start => exact inv_start h ha
  | process => exact inv_process h ha
  | final => exact inv_final h
  | abort => exact inv_of_closed rfl rfl h.segmenter h.schedule h.verdict
  | gfMul f => exact inv_complete (inv_of_frame h (t := gfMulEffect f s) rfl)
  | gfInv f => exact inv_complete (inv_of_frame h (t := gfInvEffect f s) rfl)
  | gfOrder f => exact inv_complete (inv_of_frame h (t := gfOrderEffect f s) rfl)
  | segPop =>
    exact inv_of_idle rfl (segmenterPadded_of_zero rfl) h.schedule h.session h.verdict
      h.authenticated
  | segClear =>
    exact inv_of_idle rfl (segmenterPadded_of_zero rfl) h.schedule h.session h.verdict
      h.authenticated
  | rsmRewind => exact inv_complete (inv_of_frame h (t := rsmRewindEffect s) rfl)
  | softReset => exact inv_complete h

/-! ### Issue -/

/-- A command in flight changes none of the checks. -/
theorem admissible_accept {i j : Instr} {s : State} :
    Admissible i (s.accept j) ↔ Admissible i s := by
  cases i with
  | gfMul f => cases f <;> exact Iff.rfl
  | gfInv f => cases f <;> exact Iff.rfl
  | gfOrder f => cases f <;> exact Iff.rfl
  | _ => exact Iff.rfl

/-- An accepted command has passed its checks (60_exceptions.md R164). -/
theorem inv_accept {s : State} (h : Inv s) {i : Instr} (hi : i ≠ .softReset) (ha : Admissible i s) :
    Inv (s.accept i) where
  segmenter := h.segmenter
  schedule := h.schedule
  pending := fun j hj => by
    obtain rfl : i = j := Option.some.inj hj
    exact ⟨hi, admissible_accept.2 ha⟩
  session := h.session
  verdict := h.verdict
  authenticated := h.authenticated

/-- A command, whichever of its two moments the step is at, keeps the invariant; in the engine's
turn it is the one in flight. -/
theorem inv_exec {s t : State} (h : Inv s) {i : Instr} (hp : s.turn = .engine → s.pending = some i)
    (ht : exec i s = .next t) : Inv t := by
  by_cases hi : i = .softReset
  · subst hi
    cases ht
    exact inv_resetCore s
  rw [exec_eq_command i hi] at ht
  rcases State.command_cases s i (commandEffect i) with ⟨hturn, he⟩ | ⟨-, c, -, he⟩ | ⟨-, hf, he⟩ |
    ⟨-, hf, he⟩ <;> cases ht.symm.trans he
  · exact inv_effect h (h.pending i (hp hturn)).2
  · exact inv_of_frame h rfl
  · exact inv_accept h hi ((s.failingCheck_eq_none i).1 hf).2
  · obtain ⟨-, ha⟩ := (s.failingCheck_eq_none i).1 hf
    exact inv_effect (inv_accept h hi ha) (admissible_accept.2 ha)

theorem inv_issue {s t : State} (h : Inv s) (hturn : s.turn ≠ .engine) {w : Word}
    (ht : s.issue w = .next t) : Inv t := by
  cases hd : decode w with
  | ok i => exact inv_exec h (fun he => absurd he hturn) (by simpa [State.issue, hd] using ht)
  | error e =>
    rw [State.issue_illegal s hd] at ht
    cases ht
    exact inv_of_frame h rfl

/-! ### The bus -/

/-- What the read of a register can change: the port's answer, the reassembler's index and the
count of free values. -/
theorem State.readReg_frame (s : State) (r : Reg) :
    s.readReg r = { s with
      rdata := (s.readReg r).rdata, rsmIdx := (s.readReg r).rsmIdx,
      free := (s.readReg r).free } := by
  cases r with
  | byteOut => simp only [State.readReg, State.byteOut]; split <;> rfl
  | ksdata => simp only [State.readReg]; split <;> rfl
  | sboxData => simp only [State.readReg]; split <;> rfl
  | _ => rfl

/-- What a read can change beside that: the errors of a misaligned one. -/
theorem State.busRead_frame (s : State) (off : BitVec 8) (n : Nat) :
    s.busRead off n = { s with
      errcode := (s.busRead off n).errcode, irqStat := (s.busRead off n).irqStat,
      rsmIdx := (s.busRead off n).rsmIdx, rdata := (s.busRead off n).rdata,
      slverr := (s.busRead off n).slverr, free := (s.busRead off n).free } := by
  rcases s.busRead_cases off n with ⟨-, he⟩ | ⟨-, he⟩ |
    ⟨r, -, -, -, ⟨-, -, he⟩ | ⟨-, -, he⟩ | ⟨-, he⟩⟩
  case inr.inr.inr.inr => rw [he, s.readReg_frame r]
  all_goals rw [he]; rfl

theorem inv_busRead {s : State} (h : Inv s) (off : BitVec 8) (n : Nat) : Inv (s.busRead off n) := by
  rw [s.busRead_frame off n]
  exact inv_of_frame h rfl

/-- A byte is at its own position of a block alone (20_memory.md R64). -/
theorem blockByte_byteAt_of_ne {v : Byte} {j k : Nat} (hj : j < 8) (hk : k < 8) (h : j ≠ k) :
    blockByte (byteAt v k) j = 0 := by
  ext b hb
  simp only [blockByte, byteAt, BitVec.getElem_extractLsb', BitVec.getLsbD_shiftLeft,
    BitVec.getLsbD_setWidth]
  grind

/-- A byte goes to position SEG_CNT, below the positions that stay zero (42_adapter.md R120). -/
theorem segmenterPadded_byteIn {s : State} (h : SegmenterPadded s) (v : Byte) :
    SegmenterPadded (s.byteIn v) := by
  obtain hlt | hfull := lt_or_eq_of_le (Nat.le_of_lt_succ s.segCnt.isLt)
  · rw [State.byteIn_of_lt hlt]
    intro j hj hj8
    have hpos : s.segCnt.val + 1 ≤ j := hj
    have hold : blockByte s.segbuf j = 0 := h j (by omega) hj8
    have hnew : blockByte (byteAt v s.segCnt.val) j = 0 := blockByte_byteAt_of_ne hj8 hlt (by omega)
    show blockByte (s.segbuf ||| byteAt v s.segCnt.val) j = 0
    rw [blockByte, BitVec.extractLsb'_or]
    exact (congrArg₂ (· ||| ·) hold hnew).trans BitVec.zero_or
  · rw [State.byteIn_full hfull]
    exact h

theorem inv_byteIn {s : State} (h : Inv s) (hp : s.pending = none) (v : Byte) :
    Inv (s.byteIn v) := by
  have hseg := segmenterPadded_byteIn h.segmenter v
  obtain hlt | hfull := lt_or_eq_of_le (Nat.le_of_lt_succ s.segCnt.isLt)
  · rw [State.byteIn_of_lt hlt] at hseg ⊢
    exact inv_of_idle hp hseg h.schedule h.session h.verdict h.authenticated
  · rw [State.byteIn_full hfull]
    exact inv_of_frame h rfl

/-- The write of a locked register, made only with no command in flight and no session: a key word
clears KEY_VALID, and no other of them is in the schedule (10_state.md R22, R32). -/
theorem inv_writeReg_locked {s : State} (h : Inv s) (hp : s.pending = none) (hs : s.session = false)
    {r : Reg} (hr : r.locked = true) (v : Word) : Inv (s.writeReg v r) := by
  cases r with
  | key0 | key1 | key2 | key3 => exact inv_of_closed hp hs h.segmenter nofun h.verdict
  | ctrl | ivLo | ivHi | msglenLo | msglenHi | fpoly8 | fgen8 | fpoly16 | fgen16 =>
    exact inv_of_closed hp hs h.segmenter h.schedule h.verdict
  | _ => cases hr

/-- A write that BUSY and LOCKED let through. -/
theorem inv_writeReg {s : State} (h : Inv s) {r : Reg} (hb : s.busy = true → r.busyExempt = true)
    (hl : s.session = true → r.locked = false) (v : Word) : Inv (s.writeReg v r) := by
  have hidle : r.busyExempt = false → s.pending = none := fun hr => by
    by_contra hp
    exact absurd (hb (Option.isSome_iff_ne_none.2 hp)) (by simp [hr])
  cases hr : r.locked with
  | true =>
    have hex : r.busyExempt = false := by
      cases he : r.busyExempt with
      | false => rfl
      | true => cases (Reg.busyExempt_writable he).2.2.symm.trans hr
    have hs : s.session = false := Bool.eq_false_iff.2 fun hs => by cases (hl hs).symm.trans hr
    exact inv_writeReg_locked h (hidle hex) hs hr v
  | false =>
    cases r with
    | byteIn => exact inv_byteIn h (hidle rfl) _
    | ctrl | key0 | key1 | key2 | key3 | ivLo | ivHi | msglenLo | msglenHi | fpoly8 | fgen8
    | fpoly16 | fgen16 => cases hr
    | _ => exact inv_of_frame h rfl

theorem inv_busWriteReg {s : State} (h : Inv s) (r : Reg) (v : Word) : Inv (s.busWriteReg r v) := by
  rcases s.busWriteReg_cases r v with ⟨-, -, he⟩ | ⟨-, -, he⟩ | ⟨hb, hl, he⟩ <;> rw [he]
  · exact inv_of_frame h rfl
  · exact inv_of_frame h rfl
  · exact inv_writeReg h hb hl v

theorem inv_busAccess {s t : State} (h : Inv s) (hturn : s.turn ≠ .engine) {a : BusAccess}
    (ht : s.busAccess a = .next t) : Inv t := by
  have h' : Inv { s with slverr := false } := inv_of_frame h rfl
  cases a with
  | read off n => cases ht; exact inv_busRead h' off n
  | write off strb v =>
    rcases State.busWrite_cases { s with slverr := false } off strb v with
      he | he | ⟨-, he⟩ | ⟨r, -, -, he⟩
    · cases ht.symm.trans he; exact inv_of_frame h rfl
    · cases ht.symm.trans he; exact h'
    · exact inv_issue h' hturn (he.symm.trans ht)
    · cases ht.symm.trans he; exact inv_busWriteReg h' r v

/-! ### Moves -/

theorem State.engineMove_idle {s : State} (hp : s.pending = none) : s.engineMove = .next s := by
  unfold State.engineMove
  split
  next => rfl
  next i hi => cases hp.symm.trans hi

theorem State.engineMove_pending {s : State} {i : Instr} (hp : s.pending = some i) :
    s.engineMove = exec i { s with turn := .engine } := by
  unfold State.engineMove
  split
  next hn => cases hp.symm.trans hn
  next j hj => cases hp.symm.trans hj; rfl

theorem inv_engineMove {s t : State} (h : Inv s) (ht : s.engineMove = .next t) : Inv t := by
  cases hp : s.pending with
  | none =>
    rw [State.engineMove_idle hp] at ht
    cases ht
    exact h
  | some i =>
    rw [State.engineMove_pending hp] at ht
    exact inv_exec (inv_of_frame (t := { s with turn := .engine }) h rfl) (fun _ => hp) ht

theorem inv_move {s t : State} (h : Inv s) {m : Input} (ht : s.move m = .next t) : Inv t := by
  cases m with
  | host a => exact inv_busAccess (inv_of_frame h rfl) (fun he => by cases he) ht
  | hostPrompt a => exact inv_busAccess (inv_of_frame h rfl) (fun he => by cases he) ht
  | engine => exact inv_engineMove h ht
  | hwReset during =>
    cases during with
    | none => cases ht; exact inv_resetCore s
    | some a => cases ht

end Sys2Proof.Machine

namespace Sys2Proof.Proofs

open Sys2Proof.Machine Sys2Proof.Safety

/-- Settles O56: `State.reset` is itself a state after a reset. -/
theorem invAtReset : Obligations.InvAtReset := inv_resetCore State.reset

/-- Settles O57, by the move the step makes. -/
theorem invKeptByEveryStep : Obligations.InvKeptByEveryStep := by
  intro s t h ht
  cases hin : s.inputs with
  | nil => exact inv_engineMove h ((step_nil hin).symm.trans ht)
  | cons m rest =>
    exact inv_move (inv_of_frame (t := { s with inputs := rest }) h rfl)
      ((step_cons hin).symm.trans ht)

end Sys2Proof.Proofs
end

section
/-! Two states that differ only in elements a reset leaves unspecified (70_reset_and_hazards.md
R180): what each move makes of the pair, and the statement that no move tells them apart (R181). -/

namespace Sys2Proof.Machine

open Sys2Proof.Safety

/-! ### The unspecified elements -/

/-- The elements that 70_reset_and_hazards.md R180 leaves unspecified. -/
structure Unspecified where
  keys : KeySchedule
  chain : Block
  tagacc : Block
  hsub : Block
  zblk : Block

/-- What a state holds in them. -/
def State.unspecified (s : State) : Unspecified := ⟨s.keys, s.chain, s.tagacc, s.hsub, s.zblk⟩

/-- The state with u in them. -/
def State.withUnspecified (s : State) (u : Unspecified) : State :=
  { s with keys := u.keys, chain := u.chain, tagacc := u.tagacc, hsub := u.hsub, zblk := u.zblk }

/-- u is what s holds wherever the element has a meaning in s: the schedule under a valid key, CHAIN
and TAGACC in a session, HSUB and ZBLK in a mode-6 session. -/
structure Unspecified.AgreesWith (u : Unspecified) (s : State) : Prop where
  keys : s.keyValid = true → u.keys = s.keys
  session : s.session = true → u.chain = s.chain ∧ u.tagacc = s.tagacc
  gcm : s.session = true → s.ctrl.extractLsb' 0 3 = 6 → u.hsub = s.hsub ∧ u.zblk = s.zblk

theorem indistinguishable_iff {s t : State} :
    Indistinguishable s t ↔ ∃ u : Unspecified, u.AgreesWith s ∧ t = s.withUnspecified u := by
  constructor
  · rintro ⟨ht, hkeys, hsession, hgcm⟩
    exact ⟨t.unspecified, ⟨hkeys, hsession, hgcm⟩, ht⟩
  · rintro ⟨u, ⟨hkeys, hsession, hgcm⟩, rfl⟩
    exact ⟨rfl, hkeys, hsession, hgcm⟩

theorem Unspecified.AgreesWith.indistinguishable {u : Unspecified} {s : State}
    (h : u.AgreesWith s) : Indistinguishable s (s.withUnspecified u) :=
  indistinguishable_iff.2 ⟨u, h, rfl⟩

theorem indistinguishable_refl (s : State) : Indistinguishable s s :=
  indistinguishable_iff.2
    ⟨s.unspecified, ⟨fun _ => rfl, fun _ => ⟨rfl, rfl⟩, fun _ _ => ⟨rfl, rfl⟩⟩, rfl⟩

/-- A change that leaves the unspecified elements, makes no key valid, opens no session and keeps
CTRL in a session leaves them with no more meaning than before. -/
theorem Unspecified.AgreesWith.of_same {u : Unspecified} {s s' : State} (h : u.AgreesWith s)
    (hsame : s'.unspecified = s.unspecified) (hkey : s'.keyValid = true → s.keyValid = true)
    (hses : s'.session = true → s.session = true ∧ s'.ctrl = s.ctrl) : u.AgreesWith s' := by
  obtain ⟨hkeys, hchain, htagacc, hhsub, hzblk⟩ := Unspecified.mk.injEq .. ▸ hsame
  refine ⟨fun hk => ?_, fun hs => ?_, fun hs hm => ?_⟩
  · exact (h.keys (hkey hk)).trans hkeys.symm
  · obtain ⟨hc, ht⟩ := h.session (hses hs).1
    exact ⟨hc.trans hchain.symm, ht.trans htagacc.symm⟩
  · obtain ⟨hs', hctrl⟩ := hses hs
    obtain ⟨hh, hz⟩ := h.gcm hs' (hctrl ▸ hm)
    exact ⟨hh.trans hhsub.symm, hz.trans hzblk.symm⟩

/-- In a mode-6 session with a valid key every one of them has a meaning. -/
theorem Unspecified.AgreesWith.eq_of_gcm {u : Unspecified} {s : State} (h : u.AgreesWith s)
    (hk : s.keyValid = true) (hs : s.session = true) (hm : s.ctrl.extractLsb' 0 3 = 6) :
    s.withUnspecified u = s := by
  obtain ⟨hc, ht⟩ := h.session hs
  obtain ⟨hh, hz⟩ := h.gcm hs hm
  simp only [State.withUnspecified, h.keys hk, hc, ht, hh, hz]

/-! ### Completion -/

/-- No step of a mode other than 6 reads HSUB or ZBLK (43_modes.md R136 to R144). -/
theorem State.modeStep_of_ne_gcm {s : State} (hm : s.ctrl.extractLsb' 0 3 ≠ 6) (h z x i : Block) :
    State.modeStep { s with hsub := h, zblk := z } x i = s.modeStep x i := by
  have hne : s.mode ≠ .gcm := fun e => hm (s.mode_eq_gcm.1 e)
  have hmode : State.mode { s with hsub := h, zblk := z } = s.mode := rfl
  simp only [State.modeStep, hmode]
  cases hc : s.mode with
  | gcm => exact absurd hc hne
  | _ => rfl

theorem indistinguishable_start {s : State} {u : Unspecified} (hu : u.AgreesWith s)
    (ha : Admissible .start s) :
    Indistinguishable (startEffect s).complete (startEffect (s.withUnspecified u)).complete := by
  obtain ⟨k, c, g, h, z⟩ := u
  obtain ⟨-, hkey, -⟩ := ha
  obtain rfl : k = s.keys := hu.keys hkey
  by_cases hm : s.ctrl.extractLsb' 0 3 = 6
  · rw [startEffect_gcm hm, startEffect_gcm (s := s.withUnspecified _) hm]
    exact indistinguishable_refl _
  · rw [startEffect_plain hm, startEffect_plain (s := s.withUnspecified _) hm]
    have hagree : Unspecified.AgreesWith ⟨s.keys, s.iv, 0, h, z⟩ (startEffect s).complete := by
      rw [startEffect_plain hm]
      exact ⟨fun _ => rfl, fun _ => ⟨rfl, rfl⟩, fun _ h6 => absurd h6 hm⟩
    rw [startEffect_plain hm] at hagree
    exact hagree.indistinguishable

theorem indistinguishable_process {s : State} {u : Unspecified} (hu : u.AgreesWith s) (hi : Inv s)
    (ha : Admissible .process s) :
    Indistinguishable (processEffect s).complete
      (processEffect (s.withUnspecified u)).complete := by
  obtain ⟨hs, -⟩ := ha
  obtain ⟨hkey, -, hmode, -⟩ := hi.session hs
  by_cases hm : s.ctrl.extractLsb' 0 3 = 6
  · rw [hu.eq_of_gcm hkey hs hm]
    exact indistinguishable_refl _
  obtain ⟨k, c, g, h, z⟩ := u
  obtain rfl : k = s.keys := hu.keys hkey
  obtain ⟨rfl, rfl⟩ : c = s.chain ∧ g = s.tagacc := hu.session hs
  rw [processEffect_eq hmode, processEffect_eq (s := s.withUnspecified _) hmode]
  have hstep : (s.withUnspecified ⟨s.keys, s.chain, s.tagacc, h, z⟩).modeStep s.din s.blkidx =
      s.modeStep s.din s.blkidx := State.modeStep_of_ne_gcm hm h z s.din s.blkidx
  have hagree : Unspecified.AgreesWith
      ⟨s.keys, (s.modeStep s.din s.blkidx).chain, (s.modeStep s.din s.blkidx).tagacc, h, z⟩
      (s.afterStep (s.modeStep s.din s.blkidx)).complete :=
    ⟨fun _ => rfl, fun _ => ⟨rfl, rfl⟩, fun _ h6 => absurd h6 hm⟩
  have hafter : ((s.withUnspecified ⟨s.keys, s.chain, s.tagacc, h, z⟩).afterStep
      ((s.withUnspecified ⟨s.keys, s.chain, s.tagacc, h, z⟩).modeStep s.din s.blkidx)).complete =
      (s.afterStep (s.modeStep s.din s.blkidx)).complete.withUnspecified
        ⟨s.keys, (s.modeStep s.din s.blkidx).chain, (s.modeStep s.din s.blkidx).tagacc, h, z⟩ := by
    rw [hstep]; rfl
  exact indistinguishable_iff.2 ⟨_, hagree, hafter⟩

theorem indistinguishable_final {s : State} {u : Unspecified} (hu : u.AgreesWith s) (hi : Inv s)
    (ha : Admissible .final s) :
    Indistinguishable (finalEffect s).complete (finalEffect (s.withUnspecified u)).complete := by
  obtain ⟨hs, -⟩ := ha
  obtain ⟨hkey, -⟩ := hi.session hs
  by_cases hm : s.ctrl.extractLsb' 0 3 = 6
  · rw [hu.eq_of_gcm hkey hs hm]
    exact indistinguishable_refl _
  · rw [finalEffect_plain hm, finalEffect_plain (s := s.withUnspecified u) hm]
    have hagree : u.AgreesWith (State.complete { s with session := false }) :=
      hu.of_same rfl id nofun
    exact hagree.indistinguishable

/-- The completion of an accepted command reads no element that has no meaning. -/
theorem indistinguishable_effect {s : State} {u : Unspecified} (hu : u.AgreesWith s) (hi : Inv s)
    {i : Instr} (ha : Admissible i s) :
    Indistinguishable (commandEffect i s).complete
      (commandEffect i (s.withUnspecified u)).complete := by
  have same : ∀ s' : State, s'.unspecified = s.unspecified → s'.keyValid = s.keyValid →
      s'.session = s.session → s'.ctrl = s.ctrl →
      Indistinguishable s' (s'.withUnspecified u) := fun s' h hk hs hc =>
    (hu.of_same h (hk ▸ id) fun h => ⟨hs ▸ h, hc⟩).indistinguishable
  cases i with
  | nop | segPop | segClear | rsmRewind | softReset => exact same _ rfl rfl rfl rfl
  | gfMul f | gfInv f | gfOrder f => cases f <;> exact same _ rfl rfl rfl rfl
  | keyLoad =>
    have hagree : Unspecified.AgreesWith { u with keys := deriveSchedule s.key s.keymodC }
        (keyLoadEffect s).complete := ⟨fun _ => rfl, hu.session, hu.gcm⟩
    exact hagree.indistinguishable
  | encBlock | decBlock =>
    obtain ⟨k, c, g, h, z⟩ := u
    obtain ⟨-, hkey, -⟩ := ha
    obtain rfl : k = s.keys := hu.keys hkey
    exact same _ rfl rfl rfl rfl
  | start => exact indistinguishable_start hu ha
  | process => exact indistinguishable_process hu hi ha
  | final => exact indistinguishable_final hu hi ha
  | abort =>
    have hagree : u.AgreesWith (abortEffect s).complete := hu.of_same rfl id nofun
    exact hagree.indistinguishable

/-! ### Issue -/

/-- Both outcomes are next states, which no access tells apart. -/
def SameStep (o p : Host.Outcome State Fault Refusal) : Prop :=
  ∃ s t, o = .next s ∧ p = .next t ∧ Indistinguishable s t

theorem sameStep_next {s t : State} (h : Indistinguishable s t) : SameStep (.next s) (.next t) :=
  ⟨s, t, rfl, rfl, h⟩

/-- No check reads an unspecified element (60_exceptions.md R165). -/
theorem State.failingCheck_withUnspecified (s : State) (u : Unspecified) (i : Instr) :
    (s.withUnspecified u).failingCheck i = s.failingCheck i := by
  cases i with
  | gfMul f | gfInv f | gfOrder f => cases f <;> rfl
  | _ => rfl

theorem sameStep_exec {s : State} {u : Unspecified} (hu : u.AgreesWith s) (hi : Inv s) {i : Instr}
    (hp : s.turn = .engine → s.pending = some i) :
    SameStep (exec i s) (exec i (s.withUnspecified u)) := by
  by_cases hne : i = .softReset
  · subst hne
    exact sameStep_next (indistinguishable_refl s.resetCore)
  rw [exec_eq_command i hne, exec_eq_command i hne]
  have hcheck := s.failingCheck_withUnspecified u i
  rcases State.command_cases s i (commandEffect i) with ⟨ht, he⟩ | ⟨ht, c, hf, he⟩ | ⟨ht, hf, he⟩ |
    ⟨ht, hf, he⟩ <;> rw [he]
  · rw [State.command_engine (s := s.withUnspecified u) ht]
    exact sameStep_next (indistinguishable_effect hu hi (hi.pending i (hp ht)).2)
  · rw [State.command_rejected (s := s.withUnspecified u) ht (hcheck.trans hf)]
    exact sameStep_next (hu.of_same (s' := s.reject c) rfl id fun h => ⟨h, rfl⟩).indistinguishable
  · rw [State.command_accepted (s := s.withUnspecified u) ht (hcheck.trans hf)]
    exact sameStep_next (hu.of_same (s' := s.accept i) rfl id fun h => ⟨h, rfl⟩).indistinguishable
  · rw [State.command_prompt (s := s.withUnspecified u) ht (hcheck.trans hf)]
    obtain ⟨-, ha⟩ := (s.failingCheck_eq_none i).1 hf
    have hu' : u.AgreesWith (s.accept i) := hu.of_same rfl id fun h => ⟨h, rfl⟩
    exact sameStep_next
      (indistinguishable_effect hu' (inv_accept hi hne ha) (admissible_accept.2 ha))

theorem sameStep_issue {s : State} {u : Unspecified} (hu : u.AgreesWith s) (hi : Inv s)
    (ht : s.turn ≠ .engine) (w : Word) :
    SameStep (s.issue w) ((s.withUnspecified u).issue w) := by
  cases hd : decode w with
  | ok i =>
    simp only [State.issue, hd]
    exact sameStep_exec hu hi fun h => absurd h ht
  | error e =>
    rw [State.issue_illegal s hd, State.issue_illegal _ hd]
    exact sameStep_next (hu.of_same (s' := s.reject _) rfl id fun h => ⟨h, rfl⟩).indistinguishable

/-! ### The bus -/

/-- KSDATA and SBOX_DATA read the schedule under a valid key alone (10_state.md R45, R46); no other
read is of an unspecified element. -/
theorem State.readReg_withUnspecified {s : State} {u : Unspecified}
    (hk : s.keyValid = true → u.keys = s.keys) (r : Reg) :
    (s.withUnspecified u).readReg r = (s.readReg r).withUnspecified u := by
  cases r with
  | ksdata | sboxData =>
    obtain ⟨k, c, g, h, z⟩ := u
    have hkey : (s.withUnspecified ⟨k, c, g, h, z⟩).keyValid = s.keyValid := rfl
    simp only [State.readReg, hkey]
    cases hv : s.keyValid with
    | false => rfl
    | true =>
      obtain rfl : k = s.keys := hk hv
      rfl
  | byteOut =>
    have hidx : (s.withUnspecified u).rsmIdx = s.rsmIdx := rfl
    simp only [State.readReg, State.byteOut, hidx]
    split <;> rfl
  | _ => rfl

theorem State.busRead_withUnspecified {s : State} {u : Unspecified}
    (hk : s.keyValid = true → u.keys = s.keys) (off : BitVec 8) (n : Nat) :
    (s.withUnspecified u).busRead off n = (s.busRead off n).withUnspecified u := by
  have hbusy : (s.withUnspecified u).busy = s.busy := rfl
  simp only [State.busRead, hbusy]
  cases aligned off n with
  | false => rfl
  | true =>
    cases Reg.ofOffset off with
    | none => rfl
    | some r =>
      simp only [State.readReg_withUnspecified hk]
      split_ifs <;> rfl

theorem indistinguishable_busRead {s : State} {u : Unspecified} (hu : u.AgreesWith s)
    (off : BitVec 8) (n : Nat) :
    Indistinguishable (s.busRead off n) ((s.withUnspecified u).busRead off n) := by
  rw [State.busRead_withUnspecified hu.keys]
  have hagree : u.AgreesWith (s.busRead off n) := by
    rw [s.busRead_frame off n]
    exact hu.of_same rfl id fun h => ⟨h, rfl⟩
  exact hagree.indistinguishable

/-- No write is of an unspecified element, or reads one. -/
theorem State.writeReg_withUnspecified (s : State) (u : Unspecified) (v : Word) (r : Reg) :
    (s.withUnspecified u).writeReg v r = (s.writeReg v r).withUnspecified u := by
  cases r with
  | byteIn =>
    have hcnt : (s.withUnspecified u).segCnt = s.segCnt := rfl
    simp only [State.writeReg, State.byteIn, hcnt]
    split <;> rfl
  | _ => rfl

/-- A write that LOCKED lets through keeps CTRL in a session (10_state.md R22). -/
theorem agreesWith_writeReg {s : State} {u : Unspecified} (hu : u.AgreesWith s) {r : Reg}
    (hl : s.session = true → r.locked = false) (v : Word) : u.AgreesWith (s.writeReg v r) := by
  cases r with
  | ctrl =>
    have hs : s.session = false := Bool.eq_false_iff.2 fun h => nomatch hl h
    exact hu.of_same rfl id fun h => nomatch hs.symm.trans h
  | key0 | key1 | key2 | key3 => exact hu.of_same rfl nofun fun h => ⟨h, rfl⟩
  | byteIn =>
    simp only [State.writeReg, State.byteIn]
    split <;> exact hu.of_same rfl id fun h => ⟨h, rfl⟩
  | _ => exact hu.of_same rfl id fun h => ⟨h, rfl⟩

theorem indistinguishable_busWriteReg {s : State} {u : Unspecified} (hu : u.AgreesWith s) (r : Reg)
    (v : Word) :
    Indistinguishable (s.busWriteReg r v) ((s.withUnspecified u).busWriteReg r v) := by
  have hsame : (s.withUnspecified u).busWriteReg r v = (s.busWriteReg r v).withUnspecified u := by
    have hbusy : (s.withUnspecified u).busy = s.busy := rfl
    have hses : (s.withUnspecified u).session = s.session := rfl
    simp only [State.busWriteReg, hbusy, hses, State.writeReg_withUnspecified]
    split_ifs <;> rfl
  rw [hsame]
  refine Unspecified.AgreesWith.indistinguishable ?_
  rcases s.busWriteReg_cases r v with ⟨-, -, he⟩ | ⟨-, -, he⟩ | ⟨-, hl, he⟩ <;> rw [he]
  · exact hu.of_same rfl id fun h => ⟨h, rfl⟩
  · exact hu.of_same rfl id fun h => ⟨h, rfl⟩
  · exact agreesWith_writeReg hu hl v

theorem sameStep_busWrite {s : State} {u : Unspecified} (hu : u.AgreesWith s) (hi : Inv s)
    (ht : s.turn ≠ .engine) (off : BitVec 8) (strb : BitVec 4) (v : Word) :
    SameStep (s.busWrite off strb v) ((s.withUnspecified u).busWrite off strb v) := by
  unfold State.busWrite
  cases aligned off (strobeWidth strb) with
  | false =>
    have hagree : u.AgreesWith s.rejectAlign := hu.of_same rfl id fun h => ⟨h, rfl⟩
    exact sameStep_next hagree.indistinguishable
  | true =>
    cases Reg.ofOffset off with
    | none => exact sameStep_next hu.indistinguishable
    | some r =>
      simp only [Bool.not_true, Bool.false_eq_true, if_false]
      split_ifs
      · exact sameStep_next hu.indistinguishable
      · exact sameStep_issue hu hi ht v
      · exact sameStep_next (indistinguishable_busWriteReg hu r v)

theorem sameStep_busAccess {s : State} {u : Unspecified} (hu : u.AgreesWith s) (hi : Inv s)
    (ht : s.turn ≠ .engine) (a : BusAccess) :
    SameStep (s.busAccess a) ((s.withUnspecified u).busAccess a) := by
  have hu' : u.AgreesWith { s with slverr := false } := hu.of_same rfl id fun h => ⟨h, rfl⟩
  cases a with
  | read off n => exact sameStep_next (indistinguishable_busRead hu' off n)
  | write off strb v => exact sameStep_busWrite hu' (inv_of_frame hi rfl) ht off strb v

/-! ### Moves -/

theorem sameStep_engineMove {s : State} {u : Unspecified} (hu : u.AgreesWith s) (hi : Inv s) :
    SameStep s.engineMove (s.withUnspecified u).engineMove := by
  cases hp : s.pending with
  | none =>
    rw [State.engineMove_idle hp, State.engineMove_idle (s := s.withUnspecified u) hp]
    exact sameStep_next hu.indistinguishable
  | some i =>
    rw [State.engineMove_pending hp, State.engineMove_pending (s := s.withUnspecified u) hp]
    exact sameStep_exec (s := { s with turn := .engine }) (hu.of_same rfl id fun h => ⟨h, rfl⟩)
      (inv_of_frame hi rfl) fun _ => hp

/-- A move that has a next state has one, not to be told apart from it, whatever the unspecified
elements are. -/
theorem sameStep_move {s s' : State} {u : Unspecified} (hu : u.AgreesWith s) (hi : Inv s)
    {m : Input} (hm : s.move m = .next s') :
    SameStep (s.move m) ((s.withUnspecified u).move m) := by
  have hturn : ∀ k, u.AgreesWith { s with turn := k } := fun k =>
    hu.of_same rfl id fun h => ⟨h, rfl⟩
  cases m with
  | host a => exact sameStep_busAccess (hturn .host) (inv_of_frame hi rfl) (fun h => by cases h) a
  | hostPrompt a =>
    exact sameStep_busAccess (hturn .prompt) (inv_of_frame hi rfl) (fun h => by cases h) a
  | engine => exact sameStep_engineMove hu hi
  | hwReset during =>
    cases during with
    | none => exact sameStep_next (indistinguishable_refl s.resetCore)
    | some a => cases hm

theorem sameStep_step {s s' : State} {u : Unspecified} (hu : u.AgreesWith s) (hi : Inv s)
    (hs : step s = .next s') : SameStep (step s) (step (s.withUnspecified u)) := by
  cases hin : s.inputs with
  | nil =>
    rw [step_nil hin, step_nil (s := s.withUnspecified u) hin]
    exact sameStep_engineMove hu hi
  | cons m rest =>
    rw [step_cons hin] at hs ⊢
    rw [step_cons (s := s.withUnspecified u) hin]
    exact sameStep_move (s := { s with inputs := rest }) (hu.of_same rfl id fun h => ⟨h, rfl⟩)
      (inv_of_frame hi rfl) hs

end Sys2Proof.Machine

namespace Sys2Proof.Proofs

open Sys2Proof.Machine Sys2Proof.Safety

/-- Settles O59, by the move the step makes; the port's answer, IRQ_STAT and IRQ_EN are none of the
unspecified elements. -/
theorem unspecifiedResetUnobservable : Obligations.UnspecifiedResetUnobservable := by
  intro s t s' hi hst hs
  obtain ⟨u, hu, rfl⟩ := indistinguishable_iff.1 hst
  obtain ⟨s'', t', hs'', ht', hind⟩ := sameStep_step hu hi hs
  cases hs.symm.trans hs''
  obtain ⟨u', -, rfl⟩ := indistinguishable_iff.1 hind
  exact ⟨_, ht', hind, rfl, rfl⟩

end Sys2Proof.Proofs
end

section
/-! What a step, an issue and a reset do, whatever the command: the scheduling of moves (logs 1 to
3), acceptance, rejection, and where the machine stops. -/

namespace Sys2Proof.Machine

open Sys2Proof.Safety

/-- A legal word written to CMD is its command's `exec` (60_exceptions.md R164). -/
theorem State.issue_of_decode {w : Word} {i : Instr} (h : decode w = .ok i) (s : State) :
    s.issue w = exec i s := by
  simp only [State.issue, h]

/-- The host's write of a word to CMD issues the word, the move used up and the port's error
response cleared, in the turn of the move. -/
theorem step_write_cmd (s : State) (rest : List Input) (w : Word) :
    step { s with inputs := .host (writeAt 0x0C w) :: rest } = (s.accessed rest .host).issue w ∧
    step { s with inputs := .hostPrompt (writeAt 0x0C w) :: rest } =
      (s.accessed rest .prompt).issue w :=
  ⟨State.busWrite_offset _ .cmd w, State.busWrite_offset _ .cmd w⟩

/-- A command that fails one of checks 3 to 6 is rejected with that check's code. -/
theorem exec_of_not_admissible {i : Instr} {s : State} (h : Issuing s) (ha : ¬ Admissible i s) :
    ∃ c, issueCheck i s = some c ∧ exec i s = .next (rejected s c) := by
  have hi : i ≠ .softReset := by
    rintro rfl
    exact ha trivial
  obtain ⟨c, hc⟩ := Option.ne_none_iff_exists'.1 ((issueCheck_eq_none i s).not.2 ha)
  exact ⟨c, hc, exec_of_issueCheck hi h hc⟩

/-- Every move but an access inside a hardware reset leaves a next state. -/
theorem State.move_next (s : State) {m : Input} (hm : ∀ a, m ≠ .hwReset (some a)) :
    ∃ t, s.move m = .next t := by
  cases m with
  | host a | hostPrompt a => exact State.busAccess_next _ a
  | engine => exact s.engineMove_next
  | hwReset during =>
    cases during with
    | none => exact ⟨_, rfl⟩
    | some a => exact absurd rfl (hm a)

end Sys2Proof.Machine

namespace Sys2Proof.Proofs

open Sys2Proof.Machine Sys2Proof.Safety

/-- Settles O4: a write to CMD by the host's two kinds of move, and the engine's move beside the
step with no move left. -/
theorem stepRunsDecodedCommand : Obligations.StepRunsDecodedCommand := by
  refine ⟨fun s rest w i hd => ?_, fun s rest i hp => ?_⟩
  · obtain ⟨hhost, hprompt⟩ := step_write_cmd s rest w
    exact ⟨hhost.trans (State.issue_of_decode hd _), hprompt.trans (State.issue_of_decode hd _)⟩
  · exact ⟨State.engineMove_pending (s := { s with inputs := rest }) hp,
      State.engineMove_pending (s := { s with inputs := [] }) hp⟩

/-- Settles O6: acceptance is the host turn's half of `State.command`. -/
theorem acceptedCommandIsInFlight : Obligations.AcceptedCommandIsInFlight :=
  fun _ _ hi ht hp ha => exec_of_admissible hi ht hp ha

/-- Settles O7: the first failing check decides the code. -/
theorem inadmissibleCommandRejected : Obligations.InadmissibleCommandRejected := by
  intro i s ht hp ha
  obtain ⟨c, hc, he⟩ := exec_of_not_admissible ⟨ht, hp⟩ ha
  exact ⟨c, issueCheck_codes hc, he⟩

/-- Settles O8, by the move the step makes. -/
theorem stopsOnlyInsideReset : Obligations.StopsOnlyInsideReset := by
  intro s
  cases hin : s.inputs with
  | nil => exact .inl (step_nil hin ▸ s.engineMove_next)
  | cons m rest =>
    rw [step_cons hin]
    by_cases hm : ∃ a, m = .hwReset (some a)
    · obtain ⟨a, rfl⟩ := hm
      exact .inr ⟨rfl, a, rest, rfl⟩
    · exact .inl (State.move_next _ fun a ha => hm ⟨a, ha⟩)

/-- Settles O11: both are `State.resetCore`. -/
theorem hardwareResetIsSoftReset : Obligations.HardwareResetIsSoftReset := fun s rest =>
  ⟨(step_hwReset s rest).trans (exec_softReset { s with inputs := rest }).symm, _,
    step_hwReset s rest, rfl⟩

end Sys2Proof.Proofs
end

section
/-! What each read returns and each accepted write stores, and the statements about them
(10_state.md R18 to R46). -/

namespace Sys2Proof.Machine

open Sys2Proof.Safety

/-! ### Reserved offsets -/

theorem Reg.offset_of_ofOffset {off : BitVec 8} {r : Reg} (h : Reg.ofOffset off = some r) :
    r.offset = off :=
  eq_of_beq (List.find?_some (p := fun r : Reg => r.offset == off) h)

/-- The gaps of the register map (10_state.md R18, R20). -/
theorem Reg.ofOffset_reserved {off : BitVec 8} (h : off = 0x1C ∨ off = 0x7C ∨ 0x98 ≤ off.toNat) :
    Reg.ofOffset off = none := by
  have hreg : ∀ r : Reg, ¬ (r.offset = 0x1C ∨ r.offset = 0x7C ∨ 0x98 ≤ r.offset.toNat) := by
    intro r
    cases r <;> decide
  cases ho : Reg.ofOffset off with
  | none => rfl
  | some r => exact absurd (Reg.offset_of_ofOffset ho ▸ h) (hreg r)

theorem aligned_four {off : BitVec 8} (h : off.toNat % 4 = 0) : aligned off 4 = true := by
  simp [aligned, h]

theorem serves_read_reserved (s : State) {off : BitVec 8} (ha : off.toNat % 4 = 0)
    (h : Reg.ofOffset off = none) : Serves s (readAt off) { answered s with rdata := 0 } :=
  serves_of fun rest k _ => by
    simp only [State.busAccess, State.busRead, aligned_four ha, h]
    rfl

theorem serves_write_reserved (s : State) {off : BitVec 8} (ha : off.toNat % 4 = 0)
    (h : Reg.ofOffset off = none) (v : Word) : Serves s (writeAt off v) (answered s) :=
  serves_of fun rest k _ => by
    have hw : strobeWidth 0b1111 = 4 := (strobeWidth_eq_four_iff _).2 rfl
    simp only [State.busAccess, State.busWrite, hw, aligned_four ha, h]
    rfl

/-! ### Reads with no command in flight -/

/-- A read but BYTE_OUT's changes the port's answer and, where it draws a free value, the count of
those; neither the moves to come nor the turn decide what it returns. -/
theorem State.readReg_accessed (s : State) (rest : List Input) (k : Turn) {r : Reg}
    (hr : r ≠ .byteOut) :
    (s.accessed rest k).readReg r =
      { s.accessed rest k with rdata := (s.readReg r).rdata, free := (s.readReg r).free } := by
  cases r with
  | byteOut => exact absurd rfl hr
  | ksdata => simp only [State.readReg]; split <;> rfl
  | sboxData => simp only [State.readReg]; split <;> rfl
  | _ => rfl

theorem serves_read_value {s : State} (hp : s.pending = none) {r : Reg} (hw : r.writeOnly = false)
    (hr : r ≠ .byteOut) :
    Serves s (readAt r.offset)
      { answered s with rdata := (s.readReg r).rdata, free := (s.readReg r).free } :=
  serves_read_idle hp hw fun rest k => State.readReg_accessed s rest k hr

/-- The fields of STATUS with no command in flight, one by one (10_state.md R26). -/
theorem status_rdata {s : State} (hp : s.pending = none) :
    (s.readReg .status).rdata =
      0#16 ++ BitVec.ofNat 4 s.rsmIdx.val ++ BitVec.ofNat 4 s.segCnt.val ++ 0#1 ++
        BitVec.ofBool s.inv0 ++ BitVec.ofBool s.authOk ++ BitVec.ofBool s.authValid ++
        BitVec.ofBool (s.session && s.blkidx == s.msglen) ++ BitVec.ofBool s.session ++
        BitVec.ofBool s.keyValid ++ 0#1 := by
  have hb : s.busy = false := by simp [State.busy, hp]
  simp only [State.readReg, State.respond_rdata, hb, statusWord, State.statusCounts,
    State.statusFlags, State.last]
  ext j hj
  simp only [BitVec.getElem_append]
  by_cases hlow : j < 8
  · grind
  · grind

/-! ### The debug windows -/

theorem State.subkeyAt_eq {s : State} {r : Fin 8}
    (hr : s.ksidx.extractLsb' 0 3 = BitVec.ofNat 3 r.val) :
    s.subkeyAt = (s.keys.kind (s.ksidx.extractLsb' 3 3))[r] := by
  have hidx : (s.ksidx.extractLsb' 0 3).toNat = r.val := by
    rw [hr, BitVec.toNat_ofNat, Nat.mod_eq_of_lt r.isLt]
  simp only [State.subkeyAt, hidx]
  rfl

theorem State.sboxEntryAt_eq {s : State} {e : Fin 256}
    (he : s.sboxIdx.extractLsb' 0 8 = BitVec.ofNat 8 e.val) :
    s.sboxEntryAt = (if s.sboxIdx.getLsbD 8 then s.keys.sbox2 else s.keys.sbox1)[e] := by
  have hidx : (s.sboxIdx.extractLsb' 0 8).toNat = e.val := by
    rw [he, BitVec.toNat_ofNat, Nat.mod_eq_of_lt e.isLt]
  simp only [State.sboxEntryAt, hidx]
  rfl

/-- KSDATA under a valid key (10_state.md R45). -/
theorem serves_read_ksdata {s : State} (hp : s.pending = none) (hk : s.keyValid = true) {r : Fin 8}
    (hr : s.ksidx.extractLsb' 0 3 = BitVec.ofNat 3 r.val) {v : Half}
    (hv : (s.keys.kind (s.ksidx.extractLsb' 3 3))[r] = v) :
    Serves s (readAt 0x8C) { answered s with rdata := v.setWidth 32 } := by
  have hread : s.readReg .ksdata = s.respond (v.setWidth 32) := by
    rw [← hv, ← State.subkeyAt_eq hr]
    exact if_pos hk
  have h := serves_read_value (r := .ksdata) hp rfl (by decide)
  rwa [hread] at h

/-- SBOX_DATA under a valid key (10_state.md R46). -/
theorem serves_read_sboxData {s : State} (hp : s.pending = none) (hk : s.keyValid = true)
    {e : Fin 256} (he : s.sboxIdx.extractLsb' 0 8 = BitVec.ofNat 8 e.val) {v : Byte}
    (hv : (if s.sboxIdx.getLsbD 8 then s.keys.sbox2 else s.keys.sbox1)[e] = v) :
    Serves s (readAt 0x94) { answered s with rdata := v.setWidth 32 } := by
  have hread : s.readReg .sboxData = s.respond (v.setWidth 32) := by
    rw [← hv, ← State.sboxEntryAt_eq he]
    exact if_pos hk
  have h := serves_read_value (r := .sboxData) hp rfl (by decide)
  rwa [hread] at h

/-- With no valid key both windows draw a free value of their width (10_state.md R45, R46). -/
theorem serves_read_windows_nokey {s : State} (hp : s.pending = none) (hk : s.keyValid = false) :
    (∃ v : Half, Serves s (readAt 0x8C)
      { answered s with rdata := v.setWidth 32, free := s.free + 1 }) ∧
    (∃ v : Byte, Serves s (readAt 0x94)
      { answered s with rdata := v.setWidth 32, free := s.free + 1 }) := by
  have hks : s.readReg .ksdata = s.respondAny 16 := by simp [State.readReg, hk]
  have hsb : s.readReg .sboxData = s.respondAny 8 := by simp [State.readReg, hk]
  have h16 := serves_read_value (r := .ksdata) hp rfl (by decide)
  have h8 := serves_read_value (r := .sboxData) hp rfl (by decide)
  rw [hks] at h16
  rw [hsb] at h8
  exact ⟨⟨_, h16⟩, ⟨_, h8⟩⟩

/-! ### Accepted writes -/

theorem State.busWriteReg_closed {s : State} (hb : s.busy = false) (hs : s.session = false)
    (r : Reg) (v : Word) : s.busWriteReg r v = s.writeReg v r := by
  simp [State.busWriteReg, hb, hs]

/-- With no command in flight and no session a write to a writable register takes effect
(20_memory.md R62). -/
theorem serves_write_closed {s t : State} {v : Word} {r : Reg} (hp : s.pending = none)
    (hs : s.session = false) (hw : r.rejectsWhileBusy = true)
    (h : ∀ (rest : List Input) (k : Turn),
      (s.accessed rest k).writeReg v r = { t with inputs := rest, turn := k }) :
    Serves s (writeAt r.offset v) t := by
  obtain ⟨hro, hcmd, -⟩ := r.rejectsWhileBusy_iff.1 hw
  exact serves_write r hro hcmd fun rest k =>
    (State.busWriteReg_closed (State.not_busy_accessed hp rest k) hs r v).trans (h rest k)

/-! ### The interrupt line -/

/-- A bit vector is not 0 when some bit of it is 1. -/
theorem ne_zero_iff_exists_getLsbD {w : Nat} (x : BitVec w) :
    x ≠ 0 ↔ ∃ k, k < w ∧ x.getLsbD k = true := by
  constructor
  · intro h
    by_contra hn
    refine h (BitVec.eq_of_getLsbD_eq fun k hk => ?_)
    simpa using fun hx => hn ⟨k, hk, hx⟩
  · rintro ⟨k, -, hk⟩ rfl
    simp at hk

end Sys2Proof.Machine

namespace Sys2Proof.Proofs

open Sys2Proof.Machine Sys2Proof.Safety

/-- Settles O40: the offset is a reserved one or a register's, and the register's read is the one of
its class, or its own. -/
theorem readsChangeNothing : Obligations.ReadsChangeNothing := by
  intro s off ha hoff
  cases ho : Reg.ofOffset off with
  | none => exact ⟨_, _, serves_read_reserved s ha ho⟩
  | some r =>
    obtain rfl := Reg.offset_of_ofOffset ho
    cases hw : r.writeOnly with
    | true => exact ⟨_, _, serves_read_writeOnly s hw⟩
    | false =>
      by_cases hp : s.pending = none
      · exact ⟨_, _, serves_read_value hp hw fun h => hoff (h ▸ rfl)⟩
      · cases hr : r.isResult with
        | true => exact ⟨_, _, serves_read_result_busy hp hr⟩
        | false =>
          by_cases hst : r = .status
          · subst hst
            exact ⟨_, _, serves_read_status_busy hp⟩
          · exact ⟨_, _, serves_read_stored s (r.readsWhileBusy_iff.2 ⟨hw, hst, hr⟩)⟩

/-- Settles O27: no register has such an offset. -/
theorem reservedOffsetsReadZero : Obligations.ReservedOffsetsReadZero := fun s _ ha h =>
  have hnone := Reg.ofOffset_reserved h
  ⟨serves_read_reserved s ha hnone, serves_write_reserved s ha hnone⟩

/-- Settles O31: the locked registers outside a session, then those that are never locked. -/
theorem acceptedWritesStore : Obligations.AcceptedWritesStore := fun _ _ hp =>
  ⟨fun hs =>
    ⟨serves_write_closed (r := .ctrl) hp hs rfl fun _ _ => rfl,
      serves_write_closed (r := .ivLo) hp hs rfl fun _ _ => rfl,
      serves_write_closed (r := .ivHi) hp hs rfl fun _ _ => rfl,
      serves_write_closed (r := .msglenLo) hp hs rfl fun _ _ => rfl,
      serves_write_closed (r := .msglenHi) hp hs rfl fun _ _ => rfl,
      serves_write_closed (r := .fpoly8) hp hs rfl fun _ _ => rfl,
      serves_write_closed (r := .fgen8) hp hs rfl fun _ _ => rfl,
      serves_write_closed (r := .fpoly16) hp hs rfl fun _ _ => rfl,
      serves_write_closed (r := .fgen16) hp hs rfl fun _ _ => rfl⟩,
    serves_write_unlocked (r := .dinLo) hp rfl rfl fun _ _ => rfl,
    serves_write_unlocked (r := .dinHi) hp rfl rfl fun _ _ => rfl,
    serves_write_unlocked (r := .gfA) hp rfl rfl fun _ _ => rfl,
    serves_write_unlocked (r := .gfB) hp rfl rfl fun _ _ => rfl,
    serves_write_unlocked (r := .ksidx) hp rfl rfl fun _ _ => rfl,
    serves_write_unlocked (r := .sboxIdx) hp rfl rfl fun _ _ => rfl⟩

/-- Settles O32: the four key words are locked registers. -/
theorem keyWriteClearsKeyValid : Obligations.KeyWriteClearsKeyValid := fun _ _ hp hs =>
  ⟨serves_write_closed (r := .key0) hp hs rfl fun _ _ => rfl,
    serves_write_closed (r := .key1) hp hs rfl fun _ _ => rfl,
    serves_write_closed (r := .key2) hp hs rfl fun _ _ => rfl,
    serves_write_closed (r := .key3) hp hs rfl fun _ _ => rfl⟩

/-- Settles O34: irq says that IRQ_STAT & IRQ_EN is not 0. -/
theorem irqIsEnabledPending : Obligations.IrqIsEnabledPending := by
  intro s
  rw [State.irq, bne_iff_ne, ne_zero_iff_exists_getLsbD]
  simp only [BitVec.getLsbD_and, Bool.and_eq_true]

/-- Settles O35: with no command in flight every register but BYTE_OUT reads its value, STATUS that
of its fields. -/
theorem readsReturnRegisters : Obligations.ReadsReturnRegisters := by
  intro s hp returns
  have value : ∀ r : Reg, r.writeOnly = false → r ≠ .byteOut → (s.readReg r).free = s.free →
      returns r.offset (s.readReg r).rdata := fun r hw hr hfree => by
    have h := serves_read_value hp hw hr
    rwa [hfree] at h
  have errcode : ∀ c : ErrCode, s.errcode = c → returns 0x10 (c.code.setWidth 32) := by
    rintro _ rfl
    exact value .errcode rfl nofun rfl
  exact ⟨value .id rfl nofun rfl, status_rdata hp ▸ value .status rfl nofun rfl,
    value .ctrl rfl nofun rfl,
    errcode .none, errcode .align, errcode .badcmd, errcode .busy, errcode .seq, errcode .nokey,
    errcode .badfield, errcode .badmode, errcode .locked, errcode .segfull,
    value .irqEn rfl nofun rfl, value .irqStat rfl nofun rfl,
    value .key0 rfl nofun rfl, value .key1 rfl nofun rfl, value .key2 rfl nofun rfl,
    value .key3 rfl nofun rfl,
    value .ivLo rfl nofun rfl, value .ivHi rfl nofun rfl,
    value .msglenLo rfl nofun rfl, value .msglenHi rfl nofun rfl,
    value .dinLo rfl nofun rfl, value .dinHi rfl nofun rfl,
    value .doutLo rfl nofun rfl, value .doutHi rfl nofun rfl,
    value .blkidxLo rfl nofun rfl, value .blkidxHi rfl nofun rfl,
    value .siglenLo rfl nofun rfl, value .siglenHi rfl nofun rfl,
    value .fpoly8 rfl nofun rfl, value .fgen8 rfl nofun rfl,
    value .fpoly16 rfl nofun rfl, value .fgen16 rfl nofun rfl,
    value .gfA rfl nofun rfl, value .gfB rfl nofun rfl, value .gfR rfl nofun rfl,
    value .ksidx rfl nofun rfl, value .sboxIdx rfl nofun rfl⟩

/-- Settles O39: KIND picks the array and BOX the box; without a valid key the windows are free. -/
theorem debugWindowsRead : Obligations.DebugWindowsRead := by
  refine fun s hp => ⟨fun hk r hr => ?_, fun hk e he => ?_, serves_read_windows_nokey hp⟩
  · have reads : ∀ k : BitVec 3, s.ksidx.extractLsb' 3 3 = k →
        Serves s (readAt 0x8C) { answered s with rdata := ((s.keys.kind k)[r]).setWidth 32 } :=
      fun k h => serves_read_ksdata hp hk hr (by rw [h])
    exact ⟨reads 0, reads 1, reads 2, reads 3, reads 4, reads 5, reads 6, reads 7⟩
  · exact ⟨fun h => serves_read_sboxData hp hk he (by rw [h]; rfl),
      fun h => serves_read_sboxData hp hk he (by rw [h]; rfl)⟩

/-- Settles O41: every register whose reset value is not named here is 0 (70_reset_and_hazards.md
R180). -/
theorem resetReadsZero : Obligations.ResetReadsZero := by
  refine ⟨rfl, rfl, rfl, serves_read_value (r := .id) rfl rfl nofun, fun off ha hoff => ?_,
    ?byteOut, (serves_read_windows_nokey (s := State.reset) rfl rfl).1,
    (serves_read_windows_nokey (s := State.reset) rfl rfl).2⟩
  case byteOut =>
    have hzero : (blockByte State.reset.dout State.reset.rsmIdx.val).setWidth 32 = 0#32 := by decide
    have hbyte : State.reset.byteOut = { State.reset with rdata := 0, rsmIdx := 1 } := by
      rw [State.byteOut_of_lt (by decide), hzero]
      rfl
    exact serves_read_idle (r := .byteOut) rfl rfl fun rest k =>
      congrArg (fun s : State => s.accessed rest k) hbyte
  cases ho : Reg.ofOffset off with
  | none => exact serves_read_reserved State.reset ha ho
  | some r =>
    obtain rfl := Reg.offset_of_ofOffset ho
    cases r with
    | id | byteOut | ksdata | sboxData => exact absurd hoff (by decide)
    | cmd | byteIn => exact serves_read_writeOnly State.reset rfl
    | _ => exact serves_read_value (s := State.reset) rfl rfl nofun

end Sys2Proof.Proofs
end

section
/-! The remainder of R89 and the order of R93 in the ring of residues, and the statements about them
(40_field_engine.md). -/

namespace Sys2Proof.Machine

/-- x differs from its remainder by a multiple of P (40_field_engine.md R89). -/
theorem exists_eq_clmul_xor_pmod (x P : Nat) : ∃ q : Nat, x = clmul q P ^^^ pmod x P := by
  have hdvd : polyOf P ∣ polyOf (x ^^^ pmod x P) := by
    rw [polyOf_xor, ← CharTwo.sub_eq_add]
    exact AdjoinRoot.mk_eq_mk.1 (residue_pmod P x).symm
  obtain ⟨p, hp⟩ := hdvd
  obtain ⟨q, rfl⟩ := polyOf_surjective p
  have hq : clmul q P = x ^^^ pmod x P := by
    refine polyOf_injective ?_
    rw [polyOf_clmul, mul_comm]
    exact hp.symm
  exact ⟨q, by rw [hq, Nat.xor_assoc, Nat.xor_self, Nat.xor_zero]⟩

theorem gfPow_one {P x : Nat} (hP : 1 ≤ deg P) (hx : x < 2 ^ deg P) : gfPow x 1 P = x :=
  eq_of_residue_eq hP (gfPow_lt hP x 1) hx (by simp)

/-- What R93's loop finds among the exponents from k to k + left - 1, x^k being y: the least that
gives 1, or 0 when none does. -/
theorem orderFrom_spec {P : Nat} (hP : 1 ≤ deg P) (x : Nat) {left k y : Nat}
    (hy : y = gfPow x k P) :
    (orderFrom x P left k y = 0 ∧ ∀ j, k ≤ j → j < k + left → gfPow x j P ≠ 1) ∨
    (k ≤ orderFrom x P left k y ∧ orderFrom x P left k y < k + left ∧
      gfPow x (orderFrom x P left k y) P = 1 ∧
      ∀ j, k ≤ j → j < orderFrom x P left k y → gfPow x j P ≠ 1) := by
  induction left generalizing k y with
  | zero => exact .inl ⟨rfl, fun j hj hlt => by omega⟩
  | succ left ih =>
    rw [orderFrom]
    split
    next hone => exact .inr ⟨le_rfl, by omega, hy.symm.trans hone, fun j hj hlt => by omega⟩
    next hne =>
      have hnext : gfMul y x P = gfPow x (k + 1) P := by rw [gfPow_succ hP, hy]
      have hfirst : ∀ j, k ≤ j → (k + 1 ≤ j → gfPow x j P ≠ 1) → gfPow x j P ≠ 1 :=
        fun j hj h => by
          obtain rfl | hlt := hj.eq_or_lt
          · exact hy ▸ hne
          · exact h hlt
      obtain ⟨hzero, hnone⟩ | ⟨hle, hlt, hone, hleast⟩ := ih hnext
      · exact .inl ⟨hzero, fun j hj hjlt => hfirst j hj fun h => hnone j h (by omega)⟩
      · exact .inr ⟨by omega, by omega, hone, fun j hj hjlt => hfirst j hj fun h => hleast j h hjlt⟩

end Sys2Proof.Machine

namespace Sys2Proof.Proofs

open Sys2Proof.Machine

/-- Settles O43: the residues of x and of its remainder are one. -/
theorem pmodIsRemainder : Obligations.PmodIsRemainder :=
  fun x P hP => ⟨pmod_lt hP x, exists_eq_clmul_xor_pmod x P⟩

/-- Settles O47: the loop starts at the reduced operand to the power 1. -/
theorem gfOrderIsLeast : Obligations.GfOrderIsLeast := by
  intro a P hP
  have hpow : 1 < 2 ^ deg P := one_lt_two_pow_deg hP
  have hspec := orderFrom_spec hP (pmod a P) (left := 2 ^ deg P - 1)
    (gfPow_one hP (pmod_lt hP a)).symm
  refine ⟨fun h => if_pos h, fun h => ?_, fun h => ?_⟩
  · rw [show gfOrder a P = _ from if_neg h]
    intro hne
    obtain ⟨hzero, -⟩ | ⟨-, hlt, hone, hleast⟩ := hspec
    · exact absurd hzero hne
    · exact ⟨by omega, hone, hleast⟩
  · rw [show gfOrder a P = _ from if_neg h]
    intro hzero k hk hle
    obtain ⟨-, hnone⟩ | ⟨hpos, -⟩ := hspec
    · exact hnone k hk (by omega)
    · omega

end Sys2Proof.Proofs
end

section
/-! The key schedule: the subkeys by round, the S-box round by round, and that it is a permutation
(41_block_primitive.md R103, R105). -/

namespace Sys2Proof.Machine

open Sys2Proof.Safety

/-! ### The rounds of the S-box generator -/

/-- The box and the running sum after the first n rounds of R105. -/
def sboxAfter (k : Key) (n : Nat) : Vector Byte 256 × Byte :=
  ((List.finRange 256).take n).foldl (sboxRound k) (identityBox, 0)

theorem sboxAfter_succ (k : Key) (i : Fin 256) :
    sboxAfter k (i.val + 1) = sboxRound k (sboxAfter k i.val) i := by
  have hi : i.val < (List.finRange 256).length := by simp
  simp [sboxAfter, List.take_succ_eq_append_getElem hi]

theorem sboxAfter_zero (k : Key) : sboxAfter k 0 = (identityBox, 0) := by
  rw [sboxAfter, List.take_zero, List.foldl_nil]

theorem generateSbox_eq_sboxAfter (k : Key) : generateSbox k = (sboxAfter k 256).1 := by
  rw [sboxAfter, List.take_of_length_le (by simp), generateSbox]

/-- One round's box is the old one with entry i and the entry at the new sum swapped (R105). -/
theorem sboxRound_get (k : Key) (st : Vector Byte 256 × Byte) (i v : Fin 256) :
    (sboxRound k st i).1[v] =
      if v = i then st.1[(sboxRound k st i).2.toFin]
      else if v = (sboxRound k st i).2.toFin then st.1[i] else st.1[v] := by
  simp only [sboxRound, Fin.getElem_fin, Vector.getElem_swap, Fin.ext_iff, BitVec.val_toFin]

theorem sboxRound_get_sum (k : Key) (st : Vector Byte 256 × Byte) (i : Fin 256) :
    (sboxRound k st i).1[(sboxRound k st i).2.toFin] = st.1[i] := by
  rw [sboxRound_get]
  split
  next h => exact congrArg (fun v : Fin 256 => st.1[v]) h
  next => rw [if_pos rfl]

/-- `generateSbox` makes the array of R105. -/
theorem isSbox_generateSbox (k : Key) : IsSbox k (generateSbox k) := by
  refine ⟨fun n v => (sboxAfter k n).1[v], fun n => (sboxAfter k n).2, fun v => ?_, ?_,
    fun i => ?_, fun v => ?_⟩
  · dsimp only
    rw [sboxAfter_zero]
    exact Vector.getElem_ofFn v.isLt
  · dsimp only
    rw [sboxAfter_zero]
  · dsimp only
    rw [sboxAfter_succ]
    refine ⟨rfl, ?_, sboxRound_get_sum k _ i, fun v hi hj => ?_⟩
    · rw [sboxRound_get, if_pos rfl]
    · rw [sboxRound_get, if_neg hi, if_neg hj]
  · rw [generateSbox_eq_sboxAfter]

/-! ### The permutation -/

theorem toList_identityBox : identityBox.toList = (List.range 256).map (BitVec.ofNat 8) := by
  rw [identityBox, Vector.toList_ofFn, List.ofFn_eq_map, ← List.map_coe_finRange_eq_range,
    List.map_map]
  rfl

/-- A swap permutes. -/
theorem sboxRound_perm (k : Key) (st : Vector Byte 256 × Byte) (i : Fin 256) :
    (sboxRound k st i).1.toList.Perm st.1.toList :=
  Vector.perm_iff_toList_perm.1 (Vector.swap_perm i.isLt (BitVec.isLt _))

theorem sboxRounds_perm (k : Key) (l : List (Fin 256)) (st : Vector Byte 256 × Byte) :
    (l.foldl (sboxRound k) st).1.toList.Perm st.1.toList := by
  induction l generalizing st with
  | nil => rfl
  | cons i l ih => exact (ih _).trans (sboxRound_perm k st i)

end Sys2Proof.Machine

namespace Sys2Proof.Proofs

open Sys2Proof.Machine Sys2Proof.Safety

/-- Settles O48: each array is one word of the key or of the modified key for each round, and each
box is `generateSbox` of one of the two. -/
theorem subkeysOfEachRound : Obligations.SubkeysOfEachRound := by
  intro k c i K K' ks
  have hmod : i.val % 8 = i.val := Nat.mod_eq_of_lt i.isLt
  have hkl1 : K i.val = keyWord k i.val := by simp only [K, hmod, keyWord]
  refine ⟨?_, ?_, ?_, ?_, ?_, ?_, ?_, ?_, isSbox_generateSbox k, isSbox_generateSbox (k ^^^ c)⟩
  · rw [hkl1]; exact Vector.getElem_ofFn i.isLt
  all_goals exact Vector.getElem_ofFn i.isLt

/-- Settles O49: every round is a swap, and the start is the identity. -/
theorem sboxIsPermutation : Obligations.SboxIsPermutation := by
  intro k
  rw [← toList_identityBox]
  exact sboxRounds_perm k _ (identityBox, 0)

end Sys2Proof.Proofs
end

section
/-! The tag's high bits, and the keystream modes' outputs (43_modes.md R149, R153). -/

namespace Sys2Proof.Machine

open Sys2Proof.Safety

/-- With a valid tag polynomial bits 63:16 of the finished tag are ZBLK's (43_modes.md R134). -/
theorem finalTag_high {s : State} (h16 : s.fpoly16.getLsbD 16 = true)
    (h8 : s.ctrl.getLsbD 4 = true → s.fpoly8.getLsbD 8 = true) :
    s.finalTag.extractLsb' 16 48 = s.zblk.extractLsb' 16 48 :=
  extractLsb'_xor_of_lt (tmul_tagPoly_toNat_lt h16 h8 _ _) _

/-- The block that a step of CTR or of the authenticated mode adds to its input (43_modes.md R144,
R145). -/
def State.keystream (s : State) (i : Block) : Block :=
  if s.ctrl.extractLsb' 0 3 = 6 then s.encryption (s.iv + i + 1) else s.encryption (s.iv + i)

theorem State.modeStep_keystream {s : State}
    (h : s.ctrl.extractLsb' 0 3 = 5 ∨ s.ctrl.extractLsb' 0 3 = 6) (x i : Block) :
    (s.modeStep x i).y = s.keystream i ^^^ x := by
  obtain h | h := h
  · rw [State.modeStep_ctr x i h, State.keystream, if_neg (by rw [h]; decide)]
    rfl
  · rw [State.modeStep_gcm x i h, State.keystream, if_pos h]
    rfl

/-- PROCESS in a mode the spec gives a step completes with that step's result. -/
theorem exec_process_completing {s : State}
    (h : Completing s (s.session = true ∧ s.blkidx ≠ s.msglen)) (hm : s.ctrl.extractLsb' 0 3 ≠ 7) :
    exec .process s = .next (completed (s.afterStep (s.modeStep s.din s.blkidx))) :=
  exec_completing_eq (i := .process) nofun h fun p =>
    processEffect_eq (s := { s with pending := p }) hm

theorem exec_process_keystream {s : State}
    (h : Completing s (s.session = true ∧ s.blkidx ≠ s.msglen))
    (hm : s.ctrl.extractLsb' 0 3 = 5 ∨ s.ctrl.extractLsb' 0 3 = 6) :
    ∃ t, exec .process s = .next t ∧ t.dout = s.keystream s.blkidx ^^^ s.din := by
  have hne : s.ctrl.extractLsb' 0 3 ≠ 7 := by
    obtain hm | hm := hm <;> rw [hm] <;> decide
  exact ⟨_, exec_process_completing h hne, State.modeStep_keystream hm _ _⟩

end Sys2Proof.Machine

namespace Sys2Proof.Proofs

open Sys2Proof.Machine Sys2Proof.Safety

/-- Settles O52: the finished tag has ZBLK's bits 63:16, so it is not the received one. -/
theorem tagHighBitsAlwaysChecked : Obligations.TagHighBitsAlwaysChecked := by
  intro s ht hm hd h16 h8 hdiff
  have hne : s.finalTag ≠ s.din := fun h => hdiff (h ▸ finalTag_high h16 h8)
  have hexec : exec .final s = .next (completed { s with
      session := false, authValid := true, authOk := false,
      irqStat := s.irqStat ||| irqAuthFail }) :=
    exec_completing_eq (i := .final) nofun (.inl ht) fun p =>
      finalEffect_mismatch (s := { s with pending := p }) hm hd hne
  exact ⟨_, hexec, rfl, rfl, by simp [irqAuthFail]⟩

/-- Settles O53: the two keystream blocks are one, and cancel. -/
theorem keystreamIndependentOfData : Obligations.KeystreamIndependentOfData := by
  intro s s' h h' hm hmode hkeys hpoly hiv hidx
  obtain ⟨t, ht, hout⟩ := exec_process_keystream h hm
  obtain ⟨t', ht', hout'⟩ := exec_process_keystream h' (hmode ▸ hm)
  have hsame : s'.keystream s'.blkidx = s.keystream s.blkidx := by
    simp only [State.keystream, State.encryption, hmode, hkeys, hpoly, hiv, hidx]
  refine ⟨t, t', ht, ht', ?_⟩
  rw [hout, hout', hsame, BitVec.xor_comm _ s.din, BitVec.xor_assoc, ← BitVec.xor_assoc _ _ s'.din,
    BitVec.xor_self, BitVec.zero_xor]

end Sys2Proof.Proofs
end

section
/-! Messages and blocks: what a block's bytes are, that a message's segments reassemble to it
(42_adapter.md R117 to R119), and that SIGLEN counts the bytes left (R126). -/

namespace Sys2Proof.Machine

/-! ### The bytes of a block -/

theorem blockByte_or (a b : Block) (j : Nat) :
    blockByte (a ||| b) j = blockByte a j ||| blockByte b j :=
  BitVec.extractLsb'_or

theorem blockByte_byteAt_same {v : Byte} {j : Nat} (hj : j < 8) : blockByte (byteAt v j) j = v := by
  ext b hb
  simp only [blockByte, byteAt, BitVec.getElem_extractLsb', BitVec.getLsbD_shiftLeft,
    BitVec.getLsbD_setWidth]
  grind

/-- The first n bytes put in, the others still 0. -/
theorem blockByte_foldl (m : List Byte) (n j : Nat) (hn : n ≤ 8) (hj : j < 8) :
    blockByte ((List.range n).foldl (fun b j => b ||| byteAt (m.getD j 0) j) 0) j =
      if j < n then m.getD j 0 else 0 := by
  induction n with
  | zero => simp [blockByte]
  | succ n ih =>
    rw [List.range_succ, List.foldl_append, List.foldl_cons, List.foldl_nil, blockByte_or,
      ih (by omega)]
    by_cases hjn : j = n
    · subst hjn
      simp [blockByte_byteAt_same hj]
    · rw [blockByte_byteAt_of_ne hj (by omega) hjn]
      simp [show j < n + 1 ↔ j < n by omega]

/-- R117: byte j of the block is byte j of the group, or the padding. -/
theorem blockByte_blockOfBytes (m : List Byte) {j : Nat} (hj : j < 8) :
    blockByte (blockOfBytes m) j = m.getD j 0 := by
  rw [blockOfBytes, blockByte_foldl m 8 j le_rfl hj, if_pos hj]

theorem blockBytes_length (b : Block) : (blockBytes b).length = 8 := by simp [blockBytes]

theorem blockBytes_blockOfBytes {m : List Byte} (hm : m.length ≤ 8) :
    blockBytes (blockOfBytes m) = m ++ List.replicate (8 - m.length) 0 := by
  refine List.ext_getElem (by simp [blockBytes_length]; omega) fun j hj _ => ?_
  rw [blockBytes_length] at hj
  have hbyte : (blockBytes (blockOfBytes m))[j]'(by rwa [blockBytes_length]) = m.getD j 0 := by
    simp [blockBytes, blockByte_blockOfBytes m hj]
  rw [hbyte, List.getElem_append]
  split
  next h => simp [h]
  next h => simp [Nat.le_of_not_lt h]

/-! ### Groups -/

theorem byteGroups_of_ne_nil {m : List Byte} (hm : m ≠ []) :
    byteGroups m = m.take 8 :: byteGroups (m.drop 8) := by
  have hpos : 0 < m.length := List.length_pos_iff.2 hm
  have hcount : (m.length + 7) / 8 = ((m.drop 8).length + 7) / 8 + 1 := by
    rw [List.length_drop]
    omega
  rw [byteGroups, hcount, List.range_succ_eq_map, List.map_cons, List.map_map, byteGroups]
  congr 1
  refine List.map_congr_left fun q _ => ?_
  simp only [Function.comp_apply, List.drop_drop]
  congr 2
  omega

/-- R117: the blocks' bytes are the message and the padding of the last block. -/
theorem flatMap_blockBytes_segment (m : List Byte) :
    (segment m).flatMap blockBytes =
      m ++ List.replicate (8 * ((m.length + 7) / 8) - m.length) 0 := by
  induction h : m.length using Nat.strong_induction_on generalizing m with
  | _ n ih =>
    subst h
    obtain rfl | hm := eq_or_ne m []
    · rfl
    have hpos : 0 < m.length := List.length_pos_iff.2 hm
    have htail := ih (m.drop 8).length (by rw [List.length_drop]; omega) (m.drop 8) rfl
    rw [segment] at htail ⊢
    rw [byteGroups_of_ne_nil hm, List.map_cons, List.flatMap_cons, htail,
      blockBytes_blockOfBytes (by simp)]
    obtain hle | hlt := Nat.le_total m.length 8
    · have hdrop : m.drop 8 = [] := List.drop_eq_nil_of_le hle
      have hcount : (m.length + 7) / 8 = 1 := by omega
      simp [hdrop, List.take_of_length_le hle, hcount]
    · have htake : (m.take 8).length = 8 := by simpa using hlt
      rw [htake, Nat.sub_self, List.replicate_zero, List.append_nil, ← List.append_assoc,
        List.take_append_drop, List.length_drop]
      congr 2
      omega

/-! ### Trailing zeros -/

theorem stripTrailingZeros_append (a b : List Byte) :
    stripTrailingZeros (a ++ b) =
      if stripTrailingZeros b = [] then stripTrailingZeros a else a ++ stripTrailingZeros b := by
  simp only [stripTrailingZeros, List.reverse_append, List.dropWhile_append, List.isEmpty_iff,
    List.reverse_eq_nil_iff]
  split <;> simp

theorem stripTrailingZeros_replicate (n : Nat) :
    stripTrailingZeros (List.replicate n 0) = [] := by
  simp [stripTrailingZeros]

theorem stripTrailingZeros_append_replicate (a : List Byte) (n : Nat) :
    stripTrailingZeros (a ++ List.replicate n 0) = stripTrailingZeros a := by
  rw [stripTrailingZeros_append, if_pos (stripTrailingZeros_replicate n)]

/-- What is left of a sequence is its beginning. -/
theorem take_length_stripTrailingZeros (l : List Byte) :
    l.take (stripTrailingZeros l).length = stripTrailingZeros l := by
  have hsplit : stripTrailingZeros l ++ (l.reverse.takeWhile (· == 0)).reverse = l := by
    rw [stripTrailingZeros, ← List.reverse_append, List.takeWhile_append_dropWhile,
      List.reverse_reverse]
  have htake := List.take_left (l₁ := stripTrailingZeros l)
    (l₂ := (l.reverse.takeWhile (· == 0)).reverse)
  rwa [hsplit] at htake

/-! ### SIGLEN -/

/-- The k lowest bytes of a block, the lowest first. -/
def lowBytes : Nat → Block → List Byte
  | 0, _ => []
  | k + 1, y => y.extractLsb' 0 8 :: lowBytes k (y >>> 8)

theorem lowBytes_eq_map (k : Nat) (y : Block) :
    lowBytes k y = (List.range k).map fun j => y.extractLsb' (8 * j) 8 := by
  induction k generalizing y with
  | zero => rfl
  | succ k ih =>
    rw [lowBytes, ih, List.range_succ_eq_map, List.map_cons, List.map_map]
    congr 1
    refine List.map_congr_left fun j _ => ?_
    ext b hb
    simp only [Function.comp_apply, BitVec.getElem_extractLsb', BitVec.getLsbD_ushiftRight]
    congr 1
    omega

theorem reverse_blockBytes (y : Block) : (blockBytes y).reverse = lowBytes 8 y := by
  rw [lowBytes_eq_map]
  rfl

theorem toNat_lowByte (y : Block) : (y.extractLsb' 0 8).toNat = y.toNat % 256 := by simp

theorem toNat_shift_byte (y : Block) : (y >>> 8).toNat = y.toNat / 256 := by
  simp [Nat.shiftRight_eq_div_pow]

theorem toNat_eq_zero_iff (y : Block) : y.toNat = 0 ↔ y = 0 :=
  ⟨fun h => BitVec.eq_of_toNat_eq h, fun h => h ▸ rfl⟩

/-- A block of two bytes or more whose low byte is 0 keeps a nonzero byte above it. -/
theorem shift_byte_ne_zero {y : Block} (hy : y ≠ 0) (h0 : y.extractLsb' 0 8 = 0) : y >>> 8 ≠ 0 := by
  have hlow : y.toNat % 256 = 0 := by rw [← toNat_lowByte, h0]; rfl
  have hpos := (toNat_eq_zero_iff y).not.2 hy
  refine (toNat_eq_zero_iff _).not.1 ?_
  rw [toNat_shift_byte]
  omega

/-- The low bytes of a nonzero block of at most k + 1 bytes, without the zeros before the first
nonzero one. -/
theorem length_dropWhile_lowBytes {k : Nat} {y : Block} (hy : y ≠ 0)
    (hlt : y.toNat < 2 ^ (8 * (k + 1))) :
    ((lowBytes (k + 1) y).dropWhile (· == 0)).length = k + 1 - trailingZeroBytesIn k y := by
  induction k generalizing y with
  | zero =>
    have hne : y.extractLsb' 0 8 ≠ 0 := fun h0 => by
      have hpos := (toNat_eq_zero_iff _).not.2 (shift_byte_ne_zero hy h0)
      rw [toNat_shift_byte] at hpos
      omega
    rw [lowBytes, List.dropWhile_cons_of_neg (by simpa using hne)]
    rfl
  | succ k ih =>
    rw [lowBytes, trailingZeroBytesIn]
    by_cases h0 : y.extractLsb' 0 8 = 0
    · have hlt' : (y >>> 8).toNat < 2 ^ (8 * (k + 1)) := by
        have hpow : 2 ^ (8 * (k + 1 + 1)) = 2 ^ (8 * (k + 1)) * 256 := by
          rw [Nat.mul_succ 8 (k + 1), Nat.pow_add]
        rw [toNat_shift_byte]
        omega
      rw [if_pos h0, List.dropWhile_cons_of_pos (by simp [h0]), ih (shift_byte_ne_zero hy h0) hlt']
      omega
    · rw [if_neg h0, List.dropWhile_cons_of_neg (by simpa using h0)]
      simp [lowBytes_eq_map]

/-- R126 counts the zero bytes at the end of a nonzero block. -/
theorem length_strip_blockBytes {y : Block} (hy : y ≠ 0) :
    (stripTrailingZeros (blockBytes y)).length = 8 - trailingZeroBytes y := by
  rw [stripTrailingZeros, List.length_reverse, reverse_blockBytes]
  exact length_dropWhile_lowBytes hy y.isLt

theorem trailingZeroBytesIn_le (k : Nat) (y : Block) : trailingZeroBytesIn k y ≤ k := by
  induction k generalizing y with
  | zero => exact le_rfl
  | succ k ih =>
    rw [trailingZeroBytesIn]
    split
    · exact Nat.succ_le_succ (ih _)
    · exact Nat.zero_le _

theorem blockBytes_zero : blockBytes 0 = List.replicate 8 0 := by decide

/-- SIGLEN after the outputs ys of a session, from the 0 that START leaves (R126). -/
def siglenOf (ys : List Block) : Block :=
  ys.zipIdx.foldl (fun n y => siglenAfter n (BitVec.ofNat 64 y.2) y.1) 0

theorem siglenOf_concat (ys : List Block) (y : Block) :
    siglenOf (ys ++ [y]) = siglenAfter (siglenOf ys) (BitVec.ofNat 64 ys.length) y := by
  simp [siglenOf, List.zipIdx_append]

theorem siglenOf_toNat {ys : List Block} (h : 8 * ys.length < 2 ^ 64) :
    (siglenOf ys).toNat = (reassemble ys .plaintext).length := by
  induction ys using List.reverseRecOn with
  | nil => rfl
  | append_singleton ys y ih =>
    rw [List.length_append, List.length_singleton] at h
    have hprev := ih (by omega)
    simp only [reassemble] at hprev ⊢
    rw [siglenOf_concat, List.flatMap_append, List.flatMap_singleton, siglenAfter,
      stripTrailingZeros_append]
    by_cases hy : y = 0
    · subst hy
      rw [if_pos rfl, blockBytes_zero, if_pos (stripTrailingZeros_replicate 8), hprev]
    · have hlen := length_strip_blockBytes hy
      have htz : trailingZeroBytes y ≤ 7 := trailingZeroBytesIn_le 7 y
      have hne : stripTrailingZeros (blockBytes y) ≠ [] := fun hnil => by
        rw [hnil, List.length_nil] at hlen
        omega
      have hbytes : (ys.flatMap blockBytes).length = 8 * ys.length := by
        simp [List.length_flatMap, blockBytes_length, Nat.mul_comm]
      rw [if_neg hy, if_neg hne, List.length_append, hlen, hbytes, BitVec.toNat_ofNat,
        BitVec.toNat_ofNat]
      omega

end Sys2Proof.Machine

namespace Sys2Proof.Proofs

open Sys2Proof.Machine

/-- Settles O54, by the outputs in order: a zero block adds nothing, a nonzero one ends the text. -/
theorem siglenIsStrippedLength : Obligations.SiglenIsStrippedLength := fun _ => siglenOf_toNat

/-- Settles O55: the blocks' bytes are the message, padded. -/
theorem segmentReassembles : Obligations.SegmentReassembles := by
  intro m
  refine ⟨by simp [Machine.segment], ?_, ?_⟩
  · rw [reassemble, flatMap_blockBytes_segment, stripTrailingZeros_append_replicate]
  · rw [reassemble, flatMap_blockBytes_segment, List.take_left]

end Sys2Proof.Proofs
end

section
/-! Sessions in which every command completes as it is issued (43_modes.md R131): what each command
leaves, an encrypt session beside the decrypt session that undoes it, and the statement that it does
(R147). -/

namespace Sys2Proof.Machine

open Sys2Proof.Safety

/-! ### Commands that complete at once -/

/-- No effect depends on the command's own being in flight. -/
theorem complete_commandEffect_accept (i j : Instr) (s : State) :
    (commandEffect i (s.accept j)).complete = (commandEffect i s).complete := by
  have hmode : (s.accept j).mode = s.mode := rfl
  have hdir : (s.accept j).dir = s.dir := rfl
  have htag : (s.accept j).finalTag = s.finalTag := rfl
  have hdin : (s.accept j).din = s.din := rfl
  cases i with
  | start =>
    simp only [commandEffect, startEffect, hmode]
    split <;> rfl
  | process =>
    simp only [commandEffect, processEffect, State.modeStep, hmode]
    cases s.mode <;> rfl
  | final =>
    simp only [commandEffect, finalEffect, gcmFinal, hmode, hdir, htag, hdin]
    cases s.dir <;> split_ifs <;> rfl
  | gfMul f | gfInv f | gfOrder f => cases f <;> rfl
  | _ => rfl

theorem exec_prompt {i : Instr} (hi : i ≠ .softReset) {s : State} (ht : s.turn = .prompt)
    (hp : s.pending = none) (ha : Admissible i s) :
    exec i s = .next (commandEffect i s).complete :=
  exec_of_completing hi (complete_commandEffect_accept i i s) (.inr ⟨ht, hp, ha⟩)

theorem issueNow_of_admissible {i : Instr} (hi : i ≠ .softReset) {s : State} (ht : s.turn = .prompt)
    (hp : s.pending = none) (ha : Admissible i s) :
    issueNow i s = some (commandEffect i s).complete := by
  have hs : { s with turn := .prompt } = s := by rw [← ht]
  rw [issueNow, hs, exec_prompt hi ht hp ha]

/-! ### What each command of a session leaves -/

/-- START, completed. -/
def State.started (s : State) : State := (startEffect s).complete

/-- PROCESS of the block x, completed. -/
def State.processed (s : State) (x : Block) : State :=
  (State.afterStep { s with din := x } (s.modeStep x s.blkidx)).complete

/-- FINAL with b in DIN, completed. -/
def State.finished (s : State) (b : Block) : State := (finalEffect { s with din := b }).complete

/-- The outputs of PROCESS for each block in turn, and the state after them. -/
def State.outputs : State → List Block → List Block × State
  | s, [] => ([], s)
  | s, x :: xs =>
    ((s.processed x).dout :: ((s.processed x).outputs xs).1, ((s.processed x).outputs xs).2)

/-- A session is open with n blocks left, in a mode that has a step. -/
structure InSession (s : State) (n : Nat) : Prop where
  session : s.session = true
  pending : s.pending = none
  mode : s.ctrl.extractLsb' 0 3 ≠ 7
  left : s.blkidx.toNat + n = s.msglen.toNat

theorem processEffect_din {s : State} (hm : s.ctrl.extractLsb' 0 3 ≠ 7) (x : Block) :
    (processEffect { s with din := x }).complete = s.processed x := by
  rw [processEffect_eq (s := { s with din := x }) hm]
  rfl

theorem InSession.admissible_process {s : State} {n : Nat} (h : InSession s (n + 1)) (x : Block) :
    Admissible .process { s with din := x } := by
  refine ⟨h.session, fun heq => ?_⟩
  have hleft := h.left
  have hidx : s.blkidx = s.msglen := heq
  rw [hidx] at hleft
  omega

theorem InSession.admissible_final {s : State} (h : InSession s 0) (b : Block) :
    Admissible .final { s with din := b } :=
  ⟨h.session, BitVec.eq_of_toNat_eq h.left⟩

theorem InSession.processed {s : State} {n : Nat} (h : InSession s (n + 1)) (x : Block) :
    InSession (s.processed x) n where
  session := h.session
  pending := rfl
  mode := h.mode
  left := by
    have hleft := h.left
    have hlt := s.msglen.isLt
    have hnext : (s.blkidx + 1).toNat = s.blkidx.toNat + 1 := by
      rw [BitVec.toNat_add]
      exact Nat.mod_eq_of_lt (by simp; omega)
    show (s.blkidx + 1).toNat + n = s.msglen.toNat
    omega

theorem InSession.outputs {s : State} {xs : List Block} (h : InSession s xs.length) :
    InSession (s.outputs xs).2 0 := by
  induction xs generalizing s with
  | nil => exact h
  | cons x xs ih => exact ih (h.processed x)

/-- What PROCESS leaves of a session's state whatever the blocks are (43_modes.md R133). -/
theorem State.outputs_frame (s : State) (xs : List Block) :
    (s.outputs xs).2 = { s with
      din := (s.outputs xs).2.din, dout := (s.outputs xs).2.dout, rsmIdx := (s.outputs xs).2.rsmIdx,
      chain := (s.outputs xs).2.chain, tagacc := (s.outputs xs).2.tagacc,
      siglen := (s.outputs xs).2.siglen, blkidx := (s.outputs xs).2.blkidx,
      pending := (s.outputs xs).2.pending, irqStat := (s.outputs xs).2.irqStat } := by
  induction xs generalizing s with
  | nil => rfl
  | cons x xs ih =>
    rw [State.outputs]
    exact ih (s.processed x)

theorem State.outputs_length (s : State) (xs : List Block) :
    (s.outputs xs).1.length = xs.length := by
  induction xs generalizing s with
  | nil => rfl
  | cons x xs ih => simp only [State.outputs, List.length_cons, ih]

/-! ### Sessions -/

theorem feed_eq_outputs {s : State} {xs : List Block} (h : InSession s xs.length)
    (ht : s.turn = .prompt) : feed s xs = some (s.outputs xs) := by
  induction xs generalizing s with
  | nil => rfl
  | cons x xs ih =>
    have hnow : issueNow .process { s with din := x } = some (s.processed x) := by
      rw [← processEffect_din h.mode x]
      exact issueNow_of_admissible (i := .process) nofun ht h.pending (h.admissible_process x)
    simp only [feed, hnow, ih (h.processed x) ht]
    rfl

/-- What START leaves (43_modes.md R132). -/
theorem State.started_frame (s : State) :
    s.started = { s with
      session := true, blkidx := 0, siglen := 0, authValid := false, authOk := false, chain := s.iv,
      tagacc := 0, hsub := s.started.hsub, zblk := s.started.zblk, pending := none,
      irqStat := s.irqStat ||| irqDone } := by
  unfold State.started startEffect
  split <;> rfl

theorem inSession_started {s : State} (ha : Admissible .start s) :
    InSession s.started s.msglen.toNat := by
  obtain ⟨-, -, -, -, hmode⟩ := ha
  rw [s.started_frame]
  exact ⟨rfl, rfl, hmode, Nat.zero_add _⟩

theorem runSession_eq {s : State} {xs : List Block} (tag : Block) (ht : s.turn = .prompt)
    (hp : s.pending = none) (ha : Admissible .start s) (hlen : s.msglen.toNat = xs.length) :
    runSession s xs tag =
      some ((s.started.outputs xs).1, (s.started.outputs xs).2.finished tag) := by
  have hstart : issueNow .start s = some s.started :=
    issueNow_of_admissible (i := .start) nofun ht hp ha
  have hturn : s.started.turn = .prompt := by
    rw [s.started_frame]
    exact ht
  have hin : InSession s.started xs.length := hlen ▸ inSession_started ha
  have hfinal : issueNow .final { (s.started.outputs xs).2 with din := tag } =
      some ((s.started.outputs xs).2.finished tag) :=
    issueNow_of_admissible (i := .final) nofun
      ((congrArg State.turn (State.outputs_frame _ xs)).trans hturn) hin.outputs.pending
      (hin.outputs.admissible_final tag)
  simp only [runSession, hstart, feed_eq_outputs hin hturn, hfinal]

/-! ### An encrypt session and its decrypt session -/

/-- The states e and d are set for an encrypt and a decrypt session of the same options. -/
structure Counterparts (e d : State) : Prop where
  encrypts : e.ctrl.getLsbD 3 = false
  decrypts : d.ctrl.getLsbD 3 = true
  mode : d.ctrl.extractLsb' 0 3 = e.ctrl.extractLsb' 0 3
  tagSelect : d.ctrl.getLsbD 4 = e.ctrl.getLsbD 4
  keys : d.keys = e.keys
  fpoly8 : d.fpoly8 = e.fpoly8
  fpoly16 : d.fpoly16 = e.fpoly16
  iv : d.iv = e.iv
  msglen : d.msglen = e.msglen
  /-- In mode 6 START computes HSUB and ZBLK of what it finds (43_modes.md R132). -/
  subkeys : e.ctrl.extractLsb' 0 3 ≠ 6 → d.hsub = e.hsub ∧ d.zblk = e.zblk

/-- They are at the same block of their sessions, too, with the same values in the elements that a
session changes or computes. -/
structure Mirrored (e d : State) : Prop extends Counterparts e d where
  hsub : d.hsub = e.hsub
  zblk : d.zblk = e.zblk
  blkidx : d.blkidx = e.blkidx
  chain : d.chain = e.chain
  tagacc : d.tagacc = e.tagacc

section

variable {e d : State}

theorem Counterparts.encryption (h : Counterparts e d) (b : Block) :
    d.encryption b = e.encryption b := by
  simp only [State.encryption, h.keys, h.fpoly16]

theorem Counterparts.decryption (h : Counterparts e d) (b : Block) :
    d.decryption (e.encryption b) = b := by
  rw [State.decryption, h.keys, h.fpoly16]
  exact decryptBlock_encryptBlock _ _ b

theorem Counterparts.tagPoly (h : Counterparts e d) : d.tagPoly = e.tagPoly := by
  simp only [State.tagPoly_eq, h.tagSelect, h.fpoly8, h.fpoly16]

/-- The decrypting step of each mode undoes the encrypting one and leaves the same chaining value
and tag accumulator (43_modes.md R147). -/
theorem Mirrored.modeStep (h : Mirrored e d) (hm : e.ctrl.extractLsb' 0 3 ≠ 7) (x i : Block) :
    d.modeStep (e.modeStep x i).y i =
      ⟨x, (e.modeStep x i).chain, (e.modeStep x i).tagacc⟩ := by
  have hdec := h.toCounterparts.decryption
  have henc := h.toCounterparts.encryption
  have modes : ∀ m : BitVec 3, m ≠ 7 →
      m = 0 ∨ m = 1 ∨ m = 2 ∨ m = 3 ∨ m = 4 ∨ m = 5 ∨ m = 6 := by decide
  obtain he | he | he | he | he | he | he := modes _ hm
  · rw [State.modeStep_ecb _ _ he, State.modeStep_ecb _ _ (h.mode.trans he), ecbStep_eq, ecbStep_eq,
      h.encrypts, h.decrypts]
    simp [hdec, h.chain, h.tagacc]
  · rw [State.modeStep_cbc _ _ he, State.modeStep_cbc _ _ (h.mode.trans he),
      cbcStep_encrypt _ h.encrypts, cbcStep_decrypt _ h.decrypts]
    simp [hdec, h.chain, h.tagacc]
  · rw [State.modeStep_pcbc _ _ he, State.modeStep_pcbc _ _ (h.mode.trans he),
      pcbcStep_encrypt _ h.encrypts, pcbcStep_decrypt _ h.decrypts]
    simp [hdec, h.chain, h.tagacc]
  · rw [State.modeStep_cfb _ _ he, State.modeStep_cfb _ _ (h.mode.trans he),
      cfbStep_encrypt _ h.encrypts, cfbStep_decrypt _ h.decrypts]
    simp [henc, h.chain, h.tagacc]
  · rw [State.modeStep_ofb _ _ he, State.modeStep_ofb _ _ (h.mode.trans he)]
    simp [ofbStep, henc, h.chain, h.tagacc]
  · rw [State.modeStep_ctr _ _ he, State.modeStep_ctr _ _ (h.mode.trans he)]
    simp [ctrStep, henc, h.iv, h.chain, h.tagacc]
  · rw [State.modeStep_gcm _ _ he, State.modeStep_gcm _ _ (h.mode.trans he),
      gcmStep_encrypt _ _ h.encrypts, gcmStep_decrypt _ _ h.decrypts]
    simp [henc, h.iv, h.chain, h.tagacc, h.hsub, h.toCounterparts.tagPoly]

theorem Mirrored.processed (h : Mirrored e d) (hm : e.ctrl.extractLsb' 0 3 ≠ 7) (x : Block) :
    (d.processed (e.processed x).dout).dout = x ∧
      Mirrored (e.processed x) (d.processed (e.processed x).dout) := by
  have hstep : d.modeStep (e.processed x).dout d.blkidx =
      ⟨x, (e.processed x).chain, (e.processed x).tagacc⟩ := h.blkidx ▸ h.modeStep hm x e.blkidx
  have hd : d.processed (e.processed x).dout =
      (State.afterStep { d with din := (e.processed x).dout }
        ⟨x, (e.processed x).chain, (e.processed x).tagacc⟩).complete := by
    rw [State.processed, hstep]
  rw [hd]
  exact ⟨rfl, { h with
    blkidx := congrArg (· + 1) h.blkidx
    chain := rfl
    tagacc := rfl }⟩

theorem Mirrored.outputs (h : Mirrored e d) (hm : e.ctrl.extractLsb' 0 3 ≠ 7) (xs : List Block) :
    (d.outputs (e.outputs xs).1).1 = xs ∧
      Mirrored (e.outputs xs).2 (d.outputs (e.outputs xs).1).2 := by
  induction xs generalizing e d with
  | nil => exact ⟨rfl, h⟩
  | cons x xs ih =>
    obtain ⟨hout, hnext⟩ := h.processed hm x
    obtain ⟨houts, hlast⟩ := ih hnext hm
    exact ⟨congrArg₂ List.cons hout houts, hlast⟩

theorem Mirrored.finalTag (h : Mirrored e d) : d.finalTag = e.finalTag := by
  simp only [State.finalTag, h.tagacc, h.msglen, h.hsub, h.toCounterparts.tagPoly, h.zblk]

theorem Counterparts.started (h : Counterparts e d) : Mirrored e.started d.started := by
  have hsubkeys : d.started.hsub = e.started.hsub ∧ d.started.zblk = e.started.zblk := by
    by_cases hm : e.ctrl.extractLsb' 0 3 = 6
    · rw [State.started, State.started, startEffect_gcm hm, startEffect_gcm (h.mode.trans hm)]
      exact ⟨h.encryption 0, (h.encryption d.iv).trans (congrArg e.encryption h.iv)⟩
    · rw [State.started, State.started, startEffect_plain hm,
        startEffect_plain fun h6 => hm (h.mode.symm.trans h6)]
      exact h.subkeys hm
  obtain ⟨hh, hz⟩ := hsubkeys
  rw [e.started_frame, d.started_frame]
  exact { h with
    subkeys := fun _ => ⟨hh, hz⟩, hsub := hh, zblk := hz, blkidx := rfl, chain := h.iv,
    tagacc := rfl }

end

/-! ### FINAL -/

theorem State.finished_session (s : State) (b : Block) : (s.finished b).session = false := by
  unfold State.finished finalEffect
  split <;> rfl

/-- The tag of an authenticated encrypt session (43_modes.md R134). -/
theorem State.finished_dout {s : State} (hm : s.ctrl.extractLsb' 0 3 = 6)
    (hd : s.ctrl.getLsbD 3 = false) (b : Block) : (s.finished b).dout = s.finalTag := by
  rw [State.finished, finalEffect_tag (s := { s with din := b }) hm hd]
  rfl

/-- The verdict of an authenticated decrypt session on the right tag (43_modes.md R134). -/
theorem State.finished_verdict {s : State} (hm : s.ctrl.extractLsb' 0 3 = 6)
    (hd : s.ctrl.getLsbD 3 = true) :
    (s.finished s.finalTag).authValid = true ∧ (s.finished s.finalTag).authOk = true := by
  rw [State.finished, finalEffect_match (s := { s with din := s.finalTag }) hm hd rfl]
  exact ⟨rfl, rfl⟩

/-- CTRL with DIR set (10_state.md R27). -/
theorem ctrl_or_dir (c : BitVec 5) :
    (c ||| 0b01000#5).extractLsb' 0 3 = c.extractLsb' 0 3 ∧
      (c ||| 0b01000#5).getLsbD 3 = true ∧ (c ||| 0b01000#5).getLsbD 4 = c.getLsbD 4 := by
  revert c
  decide

/-- The verdict of a mirrored decrypt session on the encrypt session's tag. -/
theorem Mirrored.verdict {e d : State} (h : Mirrored e d) (hm : e.ctrl.extractLsb' 0 3 = 6)
    (b : Block) :
    (d.finished (e.finished b).dout).authValid = true ∧
      (d.finished (e.finished b).dout).authOk = true := by
  rw [State.finished_dout hm h.encrypts, ← h.finalTag]
  exact State.finished_verdict (h.mode.trans hm) h.decrypts

/-- Two sessions set for each other's directions, each START admissible and MSGLEN the number of
blocks. -/
theorem Counterparts.roundTrip {e d : State} (h : Counterparts e d) (xs : List Block) (tag : Block)
    (hte : e.turn = .prompt) (htd : d.turn = .prompt) (hpe : e.pending = none)
    (hpd : d.pending = none) (hae : Admissible .start e) (had : Admissible .start d)
    (hlen : e.msglen.toNat = xs.length) :
    ∃ (ys : List Block) (u v : State),
      runSession e xs tag = some (ys, u) ∧ runSession d ys u.dout = some (xs, v) ∧
      u.session = false ∧ v.session = false ∧
      (e.ctrl.extractLsb' 0 3 = 6 → v.authValid = true ∧ v.authOk = true) := by
  have hin : InSession e.started xs.length := hlen ▸ inSession_started hae
  obtain ⟨hback, hlast⟩ := h.started.outputs hin.mode xs
  have hdlen : d.msglen.toNat = (e.started.outputs xs).1.length := by
    rw [State.outputs_length, h.msglen, hlen]
  have hdec := runSession_eq ((e.started.outputs xs).2.finished tag).dout htd hpd had hdlen
  rw [hback] at hdec
  refine ⟨_, _, _, runSession_eq tag hte hpe hae hlen, hdec, State.finished_session _ _,
    State.finished_session _ _, fun h6 => hlast.verdict ?_ tag⟩
  rw [State.outputs_frame, e.started_frame]
  exact h6

end Sys2Proof.Machine

namespace Sys2Proof.Proofs

open Sys2Proof.Machine Sys2Proof.Safety

/-- Settles O51: with DIR set the state is the decrypting counterpart; START puts both into the
prompt turn. -/
theorem sessionRoundTrip : Obligations.SessionRoundTrip := by
  intro s xs tag hp ha hd hlen
  obtain ⟨hmode, hdir, hsel⟩ := ctrl_or_dir s.ctrl
  have hcp : Counterparts { s with turn := .prompt }
      { s with ctrl := s.ctrl ||| 0b01000#5, turn := .prompt } :=
    ⟨hd, hdir, hmode, hsel, rfl, rfl, rfl, rfl, rfl, fun _ => ⟨rfl, rfl⟩⟩
  have had : Admissible .start { s with ctrl := s.ctrl ||| 0b01000#5, turn := .prompt } := by
    obtain ⟨hs, hk, hv, htag, h7⟩ := ha
    exact ⟨hs, hk, hv, by rw [hmode, hsel]; exact htag, by rw [hmode]; exact h7⟩
  exact hcp.roundTrip xs tag rfl rfl hp hp ha had hlen

end Sys2Proof.Proofs
end

section
/-! A command's latency: what the host's issue, its polls of STATUS and the engine's completion
leave, beside the issue that completes at once (70_reset_and_hazards.md R191), and the statement
that the two agree. -/

namespace Sys2Proof.Machine

open Sys2Proof.Safety

/-! ### The elements of the core -/

/-- The state without the port's record of the last access (log 8) and the model's own fields
(logs 1, 3, 4). -/
def State.elements (s : State) : State :=
  { s with rdata := 0, slverr := false, free := 0, turn := .host, inputs := [] }

/-- States with the same elements differ in the other fields alone. -/
theorem eq_of_elements_eq {a b : State} (h : a.elements = b.elements) :
    a = { b with
      rdata := a.rdata, slverr := a.slverr, free := a.free, turn := a.turn, inputs := a.inputs } :=
  congrArg (fun e : State => { e with
    rdata := a.rdata, slverr := a.slverr, free := a.free, turn := a.turn, inputs := a.inputs }) h

theorem pending_eq_of_elements {a b : State} (h : a.elements = b.elements) :
    a.pending = b.pending :=
  (congrArg State.pending h :)

/-- A command's completion turns elements into elements; PROCESS draws a free value in no mode that
has a step. -/
theorem elements_complete_commandEffect {i : Instr} {s : State}
    (hm : i = .process → s.ctrl.extractLsb' 0 3 ≠ 7) :
    (commandEffect i s).complete.elements = (commandEffect i s.elements).complete.elements := by
  have hmode : s.elements.mode = s.mode := rfl
  have hdir : s.elements.dir = s.dir := rfl
  have htag : s.elements.finalTag = s.finalTag := rfl
  have hdin : s.elements.din = s.din := rfl
  cases i with
  | start =>
    simp only [commandEffect, startEffect, hmode]
    split <;> rfl
  | process =>
    simp only [commandEffect]
    rw [processEffect_eq (hm rfl), processEffect_eq (s := s.elements) (hm rfl)]
    simp only [State.modeStep, hmode]
    cases h : s.mode with
    | reserved => exact absurd (s.mode_eq_reserved.1 h) (hm rfl)
    | _ => rfl
  | final =>
    simp only [commandEffect, finalEffect, gcmFinal, hmode, hdir, htag, hdin]
    cases s.dir <;> split_ifs <;> rfl
  | gfMul f | gfInv f | gfOrder f => cases f <;> rfl
  | _ => rfl

theorem elements_complete_congr {i : Instr} {s t : State} (h : s.elements = t.elements)
    (hm : i = .process → t.ctrl.extractLsb' 0 3 ≠ 7) :
    (commandEffect i s).complete.elements = (commandEffect i t).complete.elements := by
  have hctrl : s.ctrl = t.ctrl := (congrArg State.ctrl h :)
  rw [elements_complete_commandEffect (hctrl ▸ hm), elements_complete_commandEffect hm, h]

/-- No completion touches the moves to come or the port's error response. -/
theorem port_complete_commandEffect (i : Instr) (s : State) :
    (commandEffect i s).complete.inputs = s.inputs ∧
      (commandEffect i s).complete.slverr = s.slverr := by
  cases i with
  | start => simp only [commandEffect, startEffect]; split <;> exact ⟨rfl, rfl⟩
  | process => simp only [commandEffect, processEffect]; split <;> exact ⟨rfl, rfl⟩
  | final =>
    simp only [commandEffect, finalEffect, gcmFinal]
    cases s.dir <;> split_ifs <;> exact ⟨rfl, rfl⟩
  | _ => exact ⟨rfl, rfl⟩

/-! ### What a step leaves, but for the last read and the model's own fields -/

/-- The outcome is a state with the elements of e, the moves L still to come, and no error
response. -/
def Leaves (o : Host.Outcome State Fault Refusal) (e : State) (L : List Input) : Prop :=
  ∃ t, o = .next t ∧ t.elements = e.elements ∧ t.inputs = L ∧ t.slverr = false

/-- A poll of STATUS leaves the elements. -/
theorem leaves_poll (s : State) (L : List Input) :
    Leaves (step { s with inputs := .host (readAt 0x04) :: L }) s L := by
  obtain ⟨v, n, h⟩ := Proofs.readsChangeNothing s 0x04 rfl (by decide)
  exact ⟨_, (h L).1, rfl, rfl, rfl⟩

/-! ### Issue -/

/-- u is what the host's issue leaves and b what a prompt issue leaves: the engine's move makes b of
u. -/
structure Latency (u b : State) : Prop where
  idle : b.pending = none
  engine : ∀ s : State, s.elements = u.elements → s.slverr = false → Leaves s.engineMove b s.inputs

/-- With nothing in flight the engine has nothing to do. -/
theorem latency_of_idle {u : State} (hu : u.pending = none) : Latency u u where
  idle := hu
  engine := fun s hs hslv =>
    ⟨s, State.engineMove_idle ((pending_eq_of_elements hs).trans hu), hs, rfl, hslv⟩

/-- The engine completes what the host has issued. -/
theorem latency_of_accept {i : Instr} (hi : i ≠ .softReset) {s : State}
    (hm : i = .process → s.ctrl.extractLsb' 0 3 ≠ 7) :
    Latency (s.accept i) (commandEffect i s).complete where
  idle := rfl
  engine := fun s' hs hslv => by
    obtain ⟨hin, hslv'⟩ := port_complete_commandEffect i { s' with turn := .engine }
    refine ⟨(commandEffect i { s' with turn := .engine }).complete, ?_, ?_, hin, hslv'.trans hslv⟩
    · rw [State.engineMove_pending (pending_eq_of_elements hs), exec_eq_command i hi]
      exact State.command_engine rfl i _
    · have hel := elements_complete_congr (s := { s' with turn := .engine }) (t := s.accept i) hs hm
      exact hel.trans (congrArg State.elements (complete_commandEffect_accept i i s))

/-- Where the command in flight could be PROCESS the session has a mode with a step. -/
theorem mode_of_admissible_process {s : State} (h : Inv s) {i : Instr} (ha : Admissible i s) :
    i = .process → s.ctrl.extractLsb' 0 3 ≠ 7 := by
  rintro rfl
  obtain ⟨hs, -⟩ := ha
  obtain ⟨-, -, hmode, -⟩ := h.session hs
  exact hmode

/-- The issue of any word with nothing in flight, by the host and completed at once. -/
theorem issue_latency {s : State} (h : Inv s) (hp : s.pending = none) (w : Word) :
    ∃ u b : State, Latency u b ∧
      (∀ L, Leaves ((s.accessed L .host).issue w) u L) ∧
      (∀ L, Leaves ((s.accessed L .prompt).issue w) b L) ∧
      ∀ i, decode w = .ok i → i ≠ .softReset → Admissible i s → u.pending = some i := by
  cases hd : decode w with
  | error e =>
    exact ⟨s.reject .badcmd, s.reject .badcmd, latency_of_idle hp,
      fun L => ⟨_, State.issue_illegal _ hd, by rw [State.not_busy_accessed hp]; rfl, rfl, rfl⟩,
      fun L => ⟨_, State.issue_illegal _ hd, by rw [State.not_busy_accessed hp]; rfl, rfl, rfl⟩,
      nofun⟩
  | ok i =>
    by_cases hi : i = .softReset
    · subst hi
      refine ⟨s.resetCore, s.resetCore, latency_of_idle rfl, fun L => ?_, fun L => ?_, ?_⟩
      · exact ⟨_, State.issue_of_decode hd _, rfl, rfl, rfl⟩
      · exact ⟨_, State.issue_of_decode hd _, rfl, rfl, rfl⟩
      · rintro i hd' hne
        cases hd'
        exact absurd rfl hne
    have hdecode : ∀ j, (.ok i : Except DecodeError Instr) = .ok j → j = i := by
      rintro j hj
      cases hj
      rfl
    by_cases ha : Admissible i s
    · have hacc : ∀ L k, Admissible i (s.accessed L k) := fun L k => by
        cases i with
        | gfMul f | gfInv f | gfOrder f => cases f <;> exact ha
        | _ => exact ha
      refine ⟨s.accept i, (commandEffect i s).complete,
        latency_of_accept hi (mode_of_admissible_process h ha), fun L => ?_, fun L => ?_, ?_⟩
      · refine ⟨(s.accessed L .host).accept i, (State.issue_of_decode hd _).trans ?_, rfl, rfl, rfl⟩
        exact exec_of_admissible (s := s.accessed L .host) hi rfl hp (hacc L .host)
      · obtain ⟨hin, hslv⟩ := port_complete_commandEffect i (s.accessed L .prompt)
        refine ⟨(commandEffect i (s.accessed L .prompt)).complete,
          (State.issue_of_decode hd _).trans ?_, ?_, hin, hslv⟩
        · exact exec_prompt (s := s.accessed L .prompt) hi rfl hp (hacc L .prompt)
        · exact elements_complete_congr rfl (mode_of_admissible_process h ha)
      · intro j hj _ _
        cases hdecode j hj
        rfl
    · obtain ⟨c, hc⟩ := Option.ne_none_iff_exists'.1 ((issueCheck_eq_none i s).not.2 ha)
      have hreject : ∀ L k, k ≠ .engine →
          (s.accessed L k).issue w = .next (rejected (s.accessed L k) c) := fun L k hk => by
        refine (State.issue_of_decode hd _).trans
          (exec_of_issueCheck (s := s.accessed L k) hi ⟨hk, hp⟩ (Eq.trans ?_ hc))
        cases i with
        | gfMul f | gfInv f | gfOrder f => cases f <;> rfl
        | _ => rfl
      refine ⟨s.reject c, s.reject c, latency_of_idle hp,
        fun L => ⟨_, hreject L .host nofun, rfl, rfl, rfl⟩,
        fun L => ⟨_, hreject L .prompt nofun, rfl, rfl, rfl⟩, ?_⟩
      intro j hj _ haj
      cases hdecode j hj
      exact absurd haj ha

/-! ### Polls, then the engine -/

theorem core_run_succ {s t : State} (h : step s = .next t) (k : Nat) :
    core.run (k + 1) s = core.run k t := by
  have hstep : core.step s = .next t := h
  simp only [Host.Core.run, hstep]

theorem run_polls_engine {u b : State} (hub : Latency u b) (rest : List Input) (k : Nat) {t : State}
    (hin : t.inputs = List.replicate k (.host (readAt 0x04)) ++ .engine :: rest)
    (hel : t.elements = u.elements) (hslv : t.slverr = false) :
    Leaves (core.run (k + 1) t) b rest := by
  induction k generalizing t with
  | zero =>
    obtain ⟨t', he, hel', hin', hslv'⟩ := hub.engine { t with inputs := rest } hel hslv
    exact ⟨t', core_run_succ ((step_cons hin).trans he) 0, hel', hin', hslv'⟩
  | succ k ih =>
    obtain ⟨t', he, hel', hin', hslv'⟩ := leaves_poll t
      (List.replicate k (.host (readAt 0x04)) ++ .engine :: rest)
    have hstep : step t = .next t' :=
      (step_cons hin).trans ((step_cons (s := { t with inputs := _ :: _ }) rfl).symm.trans he)
    obtain ⟨a, ha⟩ := ih hin' (hel'.trans hel) hslv'
    exact ⟨a, (core_run_succ hstep (k + 1)).trans ha.1, ha.2⟩

/-- A run goes on from where a first part of the schedule left it. -/
theorem runProgram_then {a b : List Agent} {p : List Statement} {s : State} {r r' : HostRun}
    (h : runProgram a p s = some r) (h' : runProgram b r.left r.state = some r') :
    runProgram (a ++ b) p s = some { r' with seen := r.seen ++ r'.seen } := by
  rw [runProgram_append, h, Option.bind_some, h', Option.map_some]

/-- k turns at WAIT: it is still there, or it has read bit 0 = 0 with nothing in flight. -/
theorem runProgram_polls (k : Nat) {t : State} (hslv : t.slverr = false) :
    ∃ r, runProgram (List.replicate k .host) [.wait] t = some r ∧
      r.state.elements = t.elements ∧ r.state.slverr = false ∧
      (r.left = [.wait] ∨ t.pending = none ∧ r.left = [] ∧ r.state.rdata.getLsbD 0 = false) := by
  induction k generalizing t with
  | zero => exact ⟨_, rfl, rfl, hslv, .inl rfl⟩
  | succ k ih =>
    rw [List.replicate_succ, ← List.singleton_append]
    by_cases hp : t.pending = none
    · obtain ⟨v, hv, hrun, -⟩ := runProgram_wait_idle hp []
      exact ⟨_, runProgram_then hrun (runProgram_idle k _), rfl, rfl, .inr ⟨hp, rfl, hv⟩⟩
    · obtain ⟨v, -, hrun⟩ := runProgram_wait_busy hp []
      obtain ⟨r, hr, hel, hslv', hleft⟩ := ih (t := { t with
        slverr := false, rdata := v, free := t.free + 1, inputs := [], turn := .host }) rfl
      exact ⟨_, runProgram_then hrun hr, hel, hslv',
        hleft.imp_right fun ⟨hn, _⟩ => absurd hn hp⟩

/-- The engine's move and one host turn end a program that is at its WAIT, or done. -/
theorem runProgram_engine_host {u b : State} (hub : Latency u b) {t : State}
    (hel : t.elements = u.elements) (hslv : t.slverr = false) {left : List Statement}
    (hleft : left = [.wait] ∨ t.pending = none ∧ left = [] ∧ t.rdata.getLsbD 0 = false) :
    ∃ r, runProgram [.engine, .host] left t = some r ∧ r.left = [] ∧
      r.state.elements = b.elements ∧ r.state.slverr = false ∧ r.state.inputs = [] ∧
      r.state.rdata.getLsbD 0 = false := by
  obtain ⟨t', he, hel', hin', hslv'⟩ := hub.engine { t with inputs := [] } hel hslv
  rw [runProgram_cons (m := .engine) rfl (t := t') he]
  obtain rfl | ⟨hp, rfl, hbit⟩ := hleft
  · have hp' : t'.pending = none := (pending_eq_of_elements hel').trans hub.idle
    obtain ⟨v, hv, hrun, -⟩ := runProgram_wait_idle hp' []
    exact ⟨_, congrArg (Option.map _) hrun, rfl, hel', rfl, rfl, hv⟩
  · cases he.symm.trans (State.engineMove_idle (s := { t with inputs := [] }) hp)
    exact ⟨_, rfl, rfl, hel', hslv', hin', hbit⟩

end Sys2Proof.Machine

namespace Sys2Proof.Proofs

open Sys2Proof.Machine Sys2Proof.Safety

/-- Settles O58: the word's issue, the polls, which leave the elements, and the engine's move, which
makes of the issued state the one that a prompt issue leaves. -/
theorem latencyUnobservable : Obligations.LatencyUnobservable := by
  intro s w k rest hinv hp
  obtain ⟨u, b, hub, hhost, hprompt, hpending⟩ := issue_latency hinv hp w
  obtain ⟨b', hb, helb, hinb, hslvb⟩ := hprompt rest
  have hprogram : ∃ t, t.elements = u.elements ∧ t.slverr = false ∧ ∀ schedule,
      runProgram (.host :: schedule) [.bus (writeAt 0x0C w), .wait] s =
        runProgram schedule [.wait] t := by
    obtain ⟨t, ht, hel, -, hslv⟩ := hhost []
    refine ⟨t, hel, hslv, fun schedule => ?_⟩
    rw [runProgram_cons (m := .host (writeAt 0x0C w)) rfl ((step_write_cmd s [] w).1.trans ht)]
    show (runProgram schedule [.wait] t).map (fun r => { r with seen := [] ++ r.seen }) = _
    cases runProgram schedule [.wait] t <;> rfl
  obtain ⟨t, hel, hslv, hrun⟩ := hprogram
  obtain ⟨r, hr, helr, hslvr, hleft⟩ := runProgram_polls k hslv
  have hpend : r.state.pending = t.pending := pending_eq_of_elements helr
  obtain ⟨r', hr', hdone, helr', hslvr', hinr', hbit⟩ :=
    runProgram_engine_host hub (helr.trans hel) hslvr (hpend ▸ hleft)
  obtain ⟨t₁, ht₁, hel₁, hin₁, hslv₁⟩ :=
    hhost (List.replicate k (.host (readAt 0x04)) ++ .engine :: rest)
  obtain ⟨a, ha, hela, hina, hslva⟩ := run_polls_engine hub rest k hin₁ hel₁ hslv₁
  have hrunA : core.run (k + 2) { s with
      inputs := .host (writeAt 0x0C w) ::
        (List.replicate k (.host (readAt 0x04)) ++ .engine :: rest) } = .next a := by
    have hstep := (step_write_cmd s (List.replicate k (.host (readAt 0x04)) ++ .engine :: rest)
      w).1.trans ht₁
    exact (core_run_succ hstep (k + 1)).trans ha
  refine ⟨a, b', hrunA, (step_write_cmd s rest w).2.trans hb, ?_, fun i hd hi hadm => ?_, _,
    (hrun _).trans (runProgram_then hr hr'), hdone, ?_, hbit⟩
  · have h := eq_of_elements_eq (hela.trans helb.symm)
    rwa [hslva, ← hslvb, hina, ← hinb] at h
  · refine ⟨r, (hrun _).trans hr, hleft.resolve_right fun ⟨hn, _⟩ => ?_⟩
    rw [pending_eq_of_elements hel, hpending i hd hi hadm] at hn
    cases hn
  · have h := eq_of_elements_eq (helr'.trans helb.symm)
    rwa [hslvr', ← hslvb, hinr'] at h

end Sys2Proof.Proofs
end

section
/-! Host programs each of whose commands completes at once: what each of the host's statements
leaves and returns, up to the port's record and the model's own fields (30_encoding.md R85, R86). -/

namespace Sys2Proof.Machine

open Sys2Proof.Safety

/-! ### What a program does -/

/-- What the host has read, without STATUS, which every WAIT polls. -/
def answers (seen : List ReadResult) : List ReadResult :=
  seen.filter fun x => x.off != Reg.status.offset

/-- From the elements of a the program runs to its end, reads the answers o, and leaves the elements
of b. -/
def Performs (p : List Statement) (a : State) (o : List ReadResult) (b : State) : Prop :=
  ∀ s : State, s.elements = a.elements →
    ∃ r, promptRun p s = some r ∧ r.left = [] ∧ r.state.elements = b.elements ∧ answers r.seen = o

section

variable {p q : List Statement} {a b c : State} {o o' : List ReadResult}

theorem performs_nil (a : State) : Performs [] a [] a := fun _ h => ⟨_, rfl, rfl, h, rfl⟩

theorem Performs.append (hp : Performs p a o b) (hq : Performs q b o' c) :
    Performs (p ++ q) a (o ++ o') c := by
  intro s hs
  obtain ⟨r, hr, hleft, hb, rfl⟩ := hp s hs
  obtain ⟨r', hr', hleft', hc, rfl⟩ := hq r.state hb
  exact ⟨_, promptRun_append hr hleft hr', hleft', hc, List.filter_append _ _⟩

/-- A program that reads nothing comes first. -/
theorem Performs.silent_append (hp : Performs p a [] b) (hq : Performs q b o c) :
    Performs (p ++ q) a o c :=
  hp.append hq

/-- A program that reads nothing comes last. -/
theorem Performs.append_silent (hp : Performs p a o b) (hq : Performs q b [] c) :
    Performs (p ++ q) a o c := by
  have h := hp.append hq
  rwa [List.append_nil] at h

/-- One access, by the step that makes it. -/
theorem performs_access {x : BusAccess}
    (h : ∀ s : State, s.elements = a.elements →
      ∃ t, step { s with inputs := [.hostPrompt x] } = .next t ∧ t.elements = b.elements ∧
        answers ((Input.hostPrompt x).seen t) = o) :
    Performs (transactions [x]) a o b := by
  intro s hs
  obtain ⟨t, ht, hb, ho⟩ := h s hs
  refine ⟨{ seen := (Input.hostPrompt x).seen t ++ [], left := [], state := t }, ?_, rfl, hb, ?_⟩
  · exact (runProgram_cons (m := .hostPrompt x) rfl ht []).trans rfl
  · rwa [List.append_nil]

end

/-! ### Writes -/

theorem elements_writeReg (s : State) (v : Word) {r : Reg} (hr : r.rejectsWhileBusy = true) :
    (s.writeReg v r).elements = (s.elements.writeReg v r).elements := by
  cases r with
  | byteIn =>
    by_cases h : s.segCnt.val < 8
    · simp only [State.writeReg, State.byteIn_of_lt h, State.byteIn_of_lt (s := s.elements) h]
      rfl
    · have hfull : s.segCnt.val = 8 := by omega
      simp only [State.writeReg, State.byteIn_full hfull, State.byteIn_full (s := s.elements) hfull]
      rfl
  | errcode | irqEn | irqStat => cases hr
  | _ => rfl

/-- An accepted write does what `State.writeReg` says. -/
theorem performs_write {a : State} {r : Reg} (v : Word) (hp : a.pending = none)
    (hr : r.rejectsWhileBusy = true) (hl : (a.session && r.locked) = false) :
    Performs (transactions [wr r v]) a [] (a.writeReg v r) := by
  refine performs_access fun s hs => ?_
  obtain ⟨hro, hcmd, -⟩ := r.rejectsWhileBusy_iff.1 hr
  have hidle : s.pending = none := (pending_eq_of_elements hs).trans hp
  have hsession : s.session = a.session := (congrArg State.session hs :)
  refine ⟨(s.accessed [] .prompt).writeReg v r, ?_, ?_, rfl⟩
  · have hbus : (s.accessed [] .prompt).busWriteReg r v = (s.accessed [] .prompt).writeReg v r := by
      simp only [State.busWriteReg, State.not_busy_accessed hidle, hsession, hl, Bool.false_and,
        Bool.false_eq_true, if_false]
    show (s.accessed [] .prompt).busWrite r.offset 0b1111 v = _
    rw [State.busWrite_offset, if_neg (by simp [hro]), if_neg hcmd, hbus]
  · rw [elements_writeReg _ v hr, elements_writeReg a v hr]
    exact congrArg (fun t : State => (t.writeReg v r).elements) hs

theorem setHi_setLo (b v : Block) : setHi (setLo b (loWord v)) (hiWord v) = v := by
  ext j hj
  simp only [setHi, setLo, loWord, hiWord]
  grind

/-- The state with the value of a pair of registers set. -/
def WritablePair.store (s : State) (v : Block) : WritablePair → State
  | .iv => { s with iv := v }
  | .msglen => { s with msglen := v }
  | .din => { s with din := v }

/-- WR64 sets its register; IV and MSGLEN are locked in a session. -/
theorem performs_wr64 {a : State} (p : WritablePair) (v : Block) (hp : a.pending = none)
    (hl : p = .din ∨ a.session = false) :
    Performs (transactions (wr64 p v)) a [] (p.store a v) := by
  have hstore : (a.writeReg (loWord v) p.pair.lo).writeReg (hiWord v) p.pair.hi = p.store a v := by
    cases p <;> simp only [WritablePair.pair, Pair.lo, Pair.hi, State.writeReg, setHi_setLo,
      WritablePair.store]
  have hidle : (a.writeReg (loWord v) p.pair.lo).pending = none := by cases p <;> exact hp
  have hsession : (a.writeReg (loWord v) p.pair.lo).session = a.session := by cases p <;> rfl
  have hopen :
      (a.session && p.pair.lo.locked) = false ∧ (a.session && p.pair.hi.locked) = false := by
    obtain rfl | hs := hl
    · simp [WritablePair.pair, Pair.lo, Pair.hi, Reg.locked]
    · simp [hs]
  rw [← hstore]
  exact (performs_write (loWord v) hp (by cases p <;> rfl) hopen.1).silent_append
    (performs_write (hiWord v) hidle (by cases p <;> rfl) (hsession ▸ hopen.2))

/-! ### Reads -/

/-- The value of a pair of registers. -/
def Pair.value (s : State) : Pair → Block
  | .iv => s.iv
  | .msglen => s.msglen
  | .din => s.din
  | .dout => s.dout
  | .blkidx => s.blkidx
  | .siglen => s.siglen

/-- What RD64 returns of a value. -/
def pairAnswers (p : Pair) (v : Block) : List ReadResult :=
  [{ off := p.lo.offset, data := loWord v }, { off := p.hi.offset, data := hiWord v }]

/-- With no command in flight a read of a readable register is that register's own read. -/
theorem step_read_idle {s : State} (hp : s.pending = none) {r : Reg} (hr : r.writeOnly = false) :
    step { s with inputs := [.hostPrompt (rd r)] } = .next ((s.accessed [] .prompt).readReg r) := by
  show Host.Outcome.next ((s.accessed [] .prompt).busRead r.offset 4) = _
  rw [State.busRead_offset]
  simp only [State.not_busy_accessed hp, hr, Bool.false_and, Bool.false_eq_true, if_false]

theorem performs_read_half {a : State} {r : Reg} {v : Word} (hp : a.pending = none)
    (hr : r.writeOnly = false) (hst : r.offset ≠ Reg.status.offset)
    (h : ∀ s : State, s.elements = a.elements → s.readReg r = s.respond v) :
    Performs (transactions [rd r]) a [{ off := r.offset, data := v }] a := by
  refine performs_access fun s hs =>
    ⟨_, step_read_idle ((pending_eq_of_elements hs).trans hp) hr, ?_, ?_⟩
  · rw [h (s.accessed [] .prompt) hs]
    exact hs
  · rw [h (s.accessed [] .prompt) hs]
    exact List.filter_cons_of_pos (by simpa using hst)

theorem performs_rd64 {a : State} (p : Pair) (hp : a.pending = none) :
    Performs (transactions (rd64 p)) a (pairAnswers p (p.value a)) a := by
  have hvalue : ∀ s : State, s.elements = a.elements → p.value s = p.value a := fun s hs => by
    have h := congrArg (fun t => p.value t) hs
    cases p <;> exact h
  have hlo : ∀ s : State, s.readReg p.lo = s.respond (loWord (p.value s)) := fun s => by
    cases p <;> rfl
  have hhi : ∀ s : State, s.readReg p.hi = s.respond (hiWord (p.value s)) := fun s => by
    cases p <;> rfl
  exact (performs_read_half hp (by cases p <;> rfl) (by cases p <;> decide)
      fun s hs => hvalue s hs ▸ hlo s).append
    (performs_read_half hp (by cases p <;> rfl) (by cases p <;> decide)
      fun s hs => hvalue s hs ▸ hhi s)

/-- What the host reads of bytes at BYTE_OUT. -/
def byteAnswers (m : List Byte) : List ReadResult :=
  m.map fun v => { off := Reg.byteOut.offset, data := v.setWidth 32 }

theorem performs_byteOut {a : State} (hp : a.pending = none) (h : a.rsmIdx.val < 8) :
    Performs (transactions [rd .byteOut]) a (byteAnswers [blockByte a.dout a.rsmIdx.val])
      { a with rsmIdx := ⟨a.rsmIdx.val + 1, by omega⟩ } := by
  refine performs_access fun s hs => ?_
  have hidx : s.rsmIdx = a.rsmIdx := (congrArg State.rsmIdx hs :)
  have hdout : s.dout = a.dout := (congrArg State.dout hs :)
  have hread := State.byteOut_of_lt (s := s.accessed [] .prompt) (hidx ▸ h)
  refine ⟨_, (step_read_idle ((pending_eq_of_elements hs).trans hp) rfl).trans
    (congrArg Host.Outcome.next hread), ?_, ?_⟩
  · simp only [hidx]
    exact congrArg (fun t : State => { t with rsmIdx := ⟨a.rsmIdx.val + 1, by omega⟩ }) hs
  · simp only [hidx, hdout]
    rfl

/-- Reads of BYTE_OUT return the block's bytes from RSM_IDX on (42_adapter.md R123). -/
theorem performs_byteOuts {a : State} (hp : a.pending = none) (n k : Nat) (hn : n + k = 8)
    (hk : a.rsmIdx.val = k) :
    Performs (transactions (List.replicate n (rd .byteOut))) a
      (byteAnswers ((List.range' k n).map (blockByte a.dout))) { a with rsmIdx := 8 } := by
  induction n generalizing a k with
  | zero =>
    have h8 : a.rsmIdx = 8 := Fin.ext (by rw [hk]; omega)
    rw [← h8]
    exact performs_nil a
  | succ n ih =>
    subst hk
    have hrest := ih (a := { a with rsmIdx := ⟨a.rsmIdx.val + 1, by omega⟩ }) hp (a.rsmIdx.val + 1)
      (by omega) rfl
    exact (performs_byteOut hp (by omega)).append hrest

/-! ### Commands -/

theorem admissible_of_elements {i : Instr} {s t : State} (h : s.elements = t.elements)
    (ha : Admissible i t) : Admissible i s := by
  rw [eq_of_elements_eq h]
  cases i with
  | gfMul f | gfInv f | gfOrder f => cases f <;> exact ha
  | _ => exact ha

/-- A command that passes its checks, and the WAIT after it. -/
theorem performs_command {i : Instr} {a : State} (hi : i ≠ .softReset) (hp : a.pending = none)
    (ha : Admissible i a) (hm : i = .process → a.ctrl.extractLsb' 0 3 ≠ 7) :
    Performs (command i) a [] (commandEffect i a).complete := by
  have hissue : Performs (transactions [cmd i]) a [] (commandEffect i a).complete := by
    refine performs_access fun s hs => ?_
    have hs' : (s.accessed [] .prompt).elements = a.elements := hs
    refine ⟨(commandEffect i (s.accessed [] .prompt)).complete, ?_,
      elements_complete_congr hs' hm, rfl⟩
    obtain ⟨-, hdecode, -⟩ := Proofs.decodeEncodeAgree.1 i
    exact ((step_write_cmd s [] (encode i)).2.trans (State.issue_of_decode hdecode _)).trans
      (exec_prompt hi rfl ((pending_eq_of_elements hs').trans hp) (admissible_of_elements hs' ha))
  have hwait : Performs [.wait] (commandEffect i a).complete [] (commandEffect i a).complete := by
    intro s hs
    obtain ⟨v, -, -, hrun⟩ := runProgram_wait_idle ((pending_eq_of_elements hs).trans rfl) []
    exact ⟨_, hrun, rfl, hs, rfl⟩
  exact hissue.silent_append hwait

end Sys2Proof.Machine
end

section
/-! The host's programs for a message, part by part: opening a session, the blocks of either
direction, FINAL, and the whole (42_adapter.md R127; 43_modes.md R131). -/

namespace Sys2Proof.Machine

open Sys2Proof.Safety

/-! ### Opening a session -/

/-- CTRL, IV and MSGLEN as a session's program sets them. -/
def State.configured (s : State) (o : SessionOptions) (d : Direction) (n : Block) : State :=
  { s with ctrl := o.ctrl d, iv := o.iv.getD s.iv, msglen := n }

theorem ctrl_extract_setWidth (c : BitVec 5) : (c.setWidth 32).extractLsb' 0 5 = c := by
  revert c
  decide

theorem performs_ivAccesses {a : State} (iv : Option Block) (hp : a.pending = none)
    (hs : a.session = false) :
    Performs (transactions (ivAccesses iv)) a [] { a with iv := iv.getD a.iv } := by
  cases iv with
  | none => exact performs_nil a
  | some iv => exact performs_wr64 .iv iv hp (.inr hs)

theorem performs_openSession {a : State} {o : SessionOptions} {d : Direction} {n : Block}
    (hp : a.pending = none) (ha : Admissible .start (a.configured o d n)) :
    Performs (openSession o d n) a [] (a.configured o d n).started := by
  have hs : a.session = false := ha.1
  have hctrl : Performs (transactions [wr .ctrl ((o.ctrl d).setWidth 32)]) a []
      { a with ctrl := o.ctrl d } := by
    have h := performs_write (r := .ctrl) ((o.ctrl d).setWidth 32) hp rfl (by simp [hs])
    rwa [State.writeReg, ctrl_extract_setWidth] at h
  have hiv := performs_ivAccesses (a := { a with ctrl := o.ctrl d }) o.iv hp hs
  have hlen := performs_wr64 (a := { a with ctrl := o.ctrl d, iv := o.iv.getD a.iv }) .msglen n hp
    (.inr hs)
  have hstart := performs_command (i := .start) (a := a.configured o d n) nofun hp ha nofun
  rw [openSession, transactions_append, transactions_append]
  exact ((hctrl.silent_append hiv).silent_append hlen).silent_append hstart

/-! ### Blocks of an encrypt session -/

/-- A block is its eight bytes. -/
theorem block_ext {x y : Block} (h : ∀ j < 8, blockByte x j = blockByte y j) : x = y := by
  refine BitVec.eq_of_getLsbD_eq fun i hi => ?_
  have hbit := congrArg (BitVec.getLsbD · (i % 8)) (h (7 - i / 8) (by omega))
  have hpos : 56 - 8 * (7 - i / 8) + i % 8 = i := by omega
  simpa [blockByte, BitVec.getLsbD_extractLsb', hpos, Nat.mod_lt] using hbit

theorem blockOfBytes_concat {m : List Byte} (hm : m.length < 8) (v : Byte) :
    blockOfBytes (m ++ [v]) = blockOfBytes m ||| byteAt v m.length := by
  refine block_ext fun j hj => ?_
  rw [blockByte_or, blockByte_blockOfBytes _ hj, blockByte_blockOfBytes _ hj]
  by_cases hjm : j = m.length
  · subst hjm
    simp [blockByte_byteAt_same hj]
  · rw [blockByte_byteAt_of_ne hj hm hjm]
    simp only [List.getD_eq_getElem?_getD, List.getElem?_append]
    grind

/-- The segmenter holds the bytes m. -/
def State.filled (s : State) (m : List Byte) : State :=
  { s with segbuf := blockOfBytes m, segCnt := Fin.ofNat 9 m.length }

theorem State.filled_segCnt {s : State} {m : List Byte} (hm : m.length ≤ 8) :
    (s.filled m).segCnt.val = m.length :=
  Nat.mod_eq_of_lt (by omega)

theorem byte_extract_setWidth (v : Byte) : (v.setWidth 32).extractLsb' 0 8 = v := by
  revert v
  decide

theorem performs_byteIn {a : State} {m : List Byte} (v : Byte) (hp : a.pending = none)
    (hm : m.length < 8) :
    Performs (transactions [wr .byteIn (v.setWidth 32)]) (a.filled m) [] (a.filled (m ++ [v])) := by
  have hwrite := performs_write (a := a.filled m) (r := .byteIn) (v.setWidth 32) hp rfl
    (Bool.and_false _)
  have hcnt := State.filled_segCnt (s := a) hm.le
  have hlt : (a.filled m).segCnt.val < 8 := hcnt ▸ hm
  have hbuf :
      (a.filled m).segbuf ||| byteAt v (a.filled m).segCnt.val = blockOfBytes (m ++ [v]) := by
    rw [hcnt, blockOfBytes_concat hm]
    rfl
  have hnew :
      (⟨(a.filled m).segCnt.val + 1, by omega⟩ : Fin 9) = Fin.ofNat 9 (m ++ [v]).length := by
    refine Fin.ext ?_
    show (a.filled m).segCnt.val + 1 = (m ++ [v]).length % 9
    rw [hcnt, List.length_append, List.length_singleton]
    omega
  rw [State.writeReg, byte_extract_setWidth, State.byteIn_of_lt hlt, hbuf, hnew] at hwrite
  exact hwrite

theorem performs_byteIns {a : State} (g m : List Byte) (hp : a.pending = none)
    (hlen : m.length + g.length ≤ 8) :
    Performs (transactions (g.map fun v => wr .byteIn (v.setWidth 32))) (a.filled m) []
      (a.filled (m ++ g)) := by
  induction g generalizing m with
  | nil => rw [List.append_nil]; exact performs_nil (a.filled m)
  | cons v g ih =>
    rw [List.length_cons] at hlen
    have hrest := ih (m ++ [v]) (by simp; omega)
    rw [List.append_assoc] at hrest
    exact (performs_byteIn v hp (by omega)).silent_append hrest

/-- The block that DIN takes from the segmenter, processed: PROCESS does not see that SEG_POP has
completed before it. -/
theorem complete_process_segPop {a : State} (hm : a.ctrl.extractLsb' 0 3 ≠ 7)
    (hp : a.pending = none) (hcnt : a.segCnt = 0) (hbuf : a.segbuf = 0) (g : List Byte) :
    (processEffect (segPopEffect (a.filled g)).complete).complete =
      a.processed (blockOfBytes g) := by
  have hdone : a.irqStat ||| irqDone ||| irqDone = a.irqStat ||| irqDone := by
    rw [BitVec.or_assoc, BitVec.or_self]
  have hempty : { a with segbuf := 0, segCnt := 0, pending := none } = a := by
    rcases a
    cases hp
    cases hcnt
    cases hbuf
    rfl
  refine (processEffect_din (s := { a with
    segbuf := 0, segCnt := 0, pending := none, irqStat := a.irqStat ||| irqDone }) hm _).trans ?_
  refine Eq.trans ?_ (congrArg (State.processed · (blockOfBytes g)) hempty)
  exact congrArg (fun irq => { State.processed { a with segbuf := 0, segCnt := 0, pending := none }
    (blockOfBytes g) with irqStat := irq }) hdone

theorem performs_processBytes {a : State} {n : Nat} (h : InSession a (n + 1)) (hcnt : a.segCnt = 0)
    (hbuf : a.segbuf = 0) {g : List Byte} (hne : g ≠ []) (hlen : g.length ≤ 8) :
    Performs (processBytes g) a [] (a.processed (blockOfBytes g)) := by
  have hempty : a.filled [] = a := by
    rcases a
    cases hcnt
    cases hbuf
    rfl
  have hbytes := performs_byteIns (a := a) g [] h.pending (by simpa using hlen)
  rw [hempty, List.nil_append] at hbytes
  have hfull : (a.filled g).segCnt ≠ 0 := fun h0 => by
    have hval := State.filled_segCnt (s := a) hlen
    rw [h0] at hval
    exact hne (List.length_eq_zero_iff.1 hval.symm)
  have hpop := performs_command (i := .segPop) (a := a.filled g) nofun h.pending hfull nofun
  have hprocess := performs_command (i := .process) (a := (segPopEffect (a.filled g)).complete)
    nofun rfl (h.admissible_process (blockOfBytes g)) fun _ => h.mode
  rw [← complete_process_segPop h.mode h.pending hcnt hbuf g]
  exact (hbytes.silent_append hpop).silent_append hprocess

/-- The groups of a message go through an encrypt session, and each output is read. -/
theorem performs_encryptGroups {a : State} {gs : List (List Byte)} (h : InSession a gs.length)
    (hcnt : a.segCnt = 0) (hbuf : a.segbuf = 0) (hgs : ∀ g ∈ gs, g ≠ [] ∧ g.length ≤ 8) :
    Performs (gs.flatMap fun g => processBytes g ++ transactions (rd64 .dout)) a
      ((a.outputs (gs.map blockOfBytes)).1.flatMap (pairAnswers .dout))
      (a.outputs (gs.map blockOfBytes)).2 := by
  induction gs generalizing a with
  | nil => exact performs_nil a
  | cons g gs ih =>
    obtain ⟨hne, hlen⟩ := hgs g List.mem_cons_self
    have hnext := h.processed (blockOfBytes g)
    exact ((performs_processBytes h hcnt hbuf hne hlen).silent_append
      (performs_rd64 .dout hnext.pending)).append
        (ih hnext hcnt hbuf fun g' hg' => hgs g' (List.mem_cons_of_mem g hg'))

/-! ### Blocks of a decrypt session -/

/-- PROCESS does not see how far the reassembler has been read. -/
theorem State.outputs_rsmIdx (s : State) (k : Fin 9) (xs : List Block) :
    (State.outputs { s with rsmIdx := k } xs).1 = (s.outputs xs).1 ∧
      ∀ j, { (State.outputs { s with rsmIdx := k } xs).2 with rsmIdx := j } =
        { (s.outputs xs).2 with rsmIdx := j } := by
  cases xs with
  | nil => exact ⟨rfl, fun _ => rfl⟩
  | cons x xs =>
    have hx : State.processed { s with rsmIdx := k } x = s.processed x := rfl
    simp only [State.outputs, hx, implies_true, and_self]

theorem performs_processBlock {a : State} {n : Nat} (h : InSession a (n + 1)) (x : Block) :
    Performs (processBlock x ++ transactions (List.replicate 8 (rd .byteOut))) a
      (byteAnswers (blockBytes (a.processed x).dout)) { a.processed x with rsmIdx := 8 } := by
  have hprocess := performs_command (i := .process) (a := { a with din := x }) nofun h.pending
    (h.admissible_process x) fun _ => h.mode
  rw [show commandEffect .process = processEffect from rfl, processEffect_din h.mode x] at hprocess
  exact ((performs_wr64 .din x h.pending (.inl rfl)).silent_append hprocess).silent_append
    (performs_byteOuts rfl 8 0 rfl rfl)

theorem performs_decryptBlocks {a : State} {xs : List Block} (h : InSession a xs.length) :
    ∃ k, Performs
      (xs.flatMap fun x => processBlock x ++ transactions (List.replicate 8 (rd .byteOut))) a
      (byteAnswers ((a.outputs xs).1.flatMap blockBytes))
      { (a.outputs xs).2 with rsmIdx := k } := by
  induction xs generalizing a with
  | nil => exact ⟨a.rsmIdx, performs_nil a⟩
  | cons x xs ih =>
    have hnext : InSession { a.processed x with rsmIdx := 8 } xs.length := { h.processed x with }
    obtain ⟨k, hrest⟩ := ih hnext
    obtain ⟨houts, hlast⟩ := (a.processed x).outputs_rsmIdx 8 xs
    rw [houts, hlast k] at hrest
    refine ⟨k, ?_⟩
    have hboth := (performs_processBlock h x).append hrest
    rwa [byteAnswers, byteAnswers, ← List.map_append] at hboth

/-! ### FINAL -/

theorem performs_final {a : State} (h : InSession a 0) :
    Performs (command .final) a [] (a.finished a.din) :=
  performs_command (i := .final) nofun h.pending (h.admissible_final a.din) nofun

/-- What FINAL leaves (43_modes.md R134). -/
theorem State.finished_frame (s : State) (b : Block) :
    s.finished b = { s with
      din := b, dout := (s.finished b).dout, rsmIdx := (s.finished b).rsmIdx,
      authValid := (s.finished b).authValid, authOk := (s.finished b).authOk, session := false,
      pending := none, irqStat := (s.finished b).irqStat } := by
  unfold State.finished finalEffect gcmFinal
  cases State.dir { s with din := b } <;> split_ifs <;> rfl

end Sys2Proof.Machine
end

section
/-! A message through both of the host's programs: what the host makes of its reads, what each
program does whole, and the statement that the message comes back (42_adapter.md R127). -/

namespace Sys2Proof.Machine

open Sys2Proof.Safety

/-! ### What the host makes of its reads -/

theorem readsOf_answers {r : Reg} (hr : r.offset ≠ Reg.status.offset) (seen : List ReadResult) :
    readsOf r (answers seen) = readsOf r seen := by
  rw [readsOf, readsOf, answers, List.filter_filter]
  congr 1
  refine List.filter_congr fun x _ => ?_
  by_cases hx : x.off = r.offset <;> simp [hx, hr]

theorem pairReads_answers (p : Pair) (seen : List ReadResult) :
    pairReads p (answers seen) = pairReads p seen := by
  rw [pairReads, pairReads, readsOf_answers (by cases p <;> decide),
    readsOf_answers (by cases p <;> decide)]

theorem plaintextOf_answers (seen : List ReadResult) :
    plaintextOf (answers seen) = plaintextOf seen := by
  rw [plaintextOf, plaintextOf, pairReads_answers, bytesRead, bytesRead,
    readsOf_answers (by decide)]

/-- The two words of a block make it again. -/
theorem hiWord_append_loWord (v : Block) : hiWord v ++ loWord v = v := by
  ext j hj
  simp only [hiWord, loWord]
  grind

/-- RD64's answers are the values read (30_encoding.md R86). -/
theorem pairReads_pairAnswers (p : Pair) (ys : List Block) :
    pairReads p (ys.flatMap (pairAnswers p)) = ys := by
  have hlo : ∀ v, readsOf p.lo (pairAnswers p v) = [loWord v] := fun v => by cases p <;> rfl
  have hhi : ∀ v, readsOf p.hi (pairAnswers p v) = [hiWord v] := fun v => by cases p <;> rfl
  induction ys with
  | nil => rfl
  | cons y ys ih =>
    rw [pairReads] at ih ⊢
    rw [List.flatMap_cons, readsOf_append, readsOf_append, hlo, hhi, List.singleton_append,
      List.singleton_append, List.zipWith_cons_cons, ih, hiWord_append_loWord]

theorem readsOf_byteAnswers (m : List Byte) :
    readsOf .byteOut (byteAnswers m) = m.map fun v => v.setWidth 32 := by
  simp [readsOf, byteAnswers, List.filter_map, Function.comp_def]

theorem pairReads_siglen (m : List Byte) (n : Block) :
    pairReads .siglen (byteAnswers m ++ pairAnswers .siglen n) = [n] := by
  have hnone : ∀ r : Reg, r.offset ≠ Reg.byteOut.offset → readsOf r (byteAnswers m) = [] := by
    intro r hr
    simp [readsOf, byteAnswers, List.filter_map, Function.comp_def, hr.symm]
  rw [pairReads, readsOf_append, readsOf_append, hnone _ (by decide), hnone _ (by decide),
    List.nil_append, List.nil_append]
  exact congrArg (fun v => [v]) (hiWord_append_loWord n)

/-- The bytes of the blocks and SIGLEN give the text without its trailing zeros (42_adapter.md
R127). -/
theorem plaintextOf_blocks {xs : List Block} (h : 8 * xs.length < 2 ^ 64) :
    plaintextOf (byteAnswers (xs.flatMap blockBytes) ++ pairAnswers .siglen (siglenOf xs)) =
      reassemble xs .plaintext := by
  have hbytes : bytesRead (byteAnswers (xs.flatMap blockBytes) ++
      pairAnswers .siglen (siglenOf xs)) = xs.flatMap blockBytes := by
    have hpair : readsOf .byteOut (pairAnswers .siglen (siglenOf xs)) = [] := rfl
    have hback : ∀ v : Byte, ((v.setWidth 32).setWidth 8 : Byte) = v := fun v => by simp
    rw [bytesRead, readsOf_append, hpair, List.append_nil, readsOf_byteAnswers, List.map_map]
    simp only [Function.comp_def, hback, List.map_id']
  rw [plaintextOf, pairReads_siglen, hbytes, List.getLastD_cons, List.getLastD_nil,
    siglenOf_toNat h, reassemble]
  exact take_length_stripTrailingZeros _

/-! ### The encrypt program -/

/-- The tag the host reads after FINAL, in mode 6 alone. -/
def tagBlocks (mode : Mode) (t : Block) : List Block := if mode = .gcm then [t] else []

theorem performs_tagReads {a : State} (mode : Mode) (hp : a.pending = none) :
    Performs (transactions (tagReads mode)) a ((tagBlocks mode a.dout).flatMap (pairAnswers .dout))
      a := by
  by_cases hm : mode = .gcm
  · rw [tagReads, tagBlocks, if_pos hm, if_pos hm]
    exact performs_rd64 .dout hp
  · rw [tagReads, tagBlocks, if_neg hm, if_neg hm]
    exact performs_nil a

theorem State.finished_pending (s : State) (b : Block) : (s.finished b).pending = none := by
  rw [s.finished_frame]

theorem performs_encryptProgram {s e u : State} {o : SessionOptions} {m : List Byte}
    {ys : List Block} (hp : s.pending = none) (hcnt : s.segCnt = 0) (hbuf : s.segbuf = 0)
    (he : s.configured o .encrypt (BitVec.ofNat 64 (byteGroups m).length) = e)
    (ha : Admissible .start e) (hlen : e.msglen.toNat = (byteGroups m).length)
    (hys : e.started.outputs (segment m) = (ys, u)) :
    Performs (encryptProgram o m) s
      ((ys ++ tagBlocks o.mode (u.finished u.din).dout).flatMap (pairAnswers .dout))
      (u.finished u.din) := by
  subst he
  have hin := hlen ▸ inSession_started ha
  have hgroups : ∀ g ∈ byteGroups m, g ≠ [] ∧ g.length ≤ 8 := by
    intro g hg
    obtain ⟨q, hq, rfl⟩ := List.mem_map.1 hg
    rw [List.mem_range] at hq
    refine ⟨fun hnil => ?_, by simp⟩
    have hzero := congrArg List.length hnil
    simp only [List.length_take, List.length_drop, List.length_nil] at hzero
    omega
  have hstart := performs_openSession hp ha
  have hrun := performs_encryptGroups hin
    ((congrArg State.segCnt (State.started_frame _)).trans hcnt)
    ((congrArg State.segbuf (State.started_frame _)).trans hbuf) hgroups
  have hlast : InSession u 0 := by
    have h := InSession.outputs (xs := Machine.segment m)
      (by rwa [Machine.segment, List.length_map])
    rwa [hys] at h
  rw [← Machine.segment, hys] at hrun
  rw [encryptProgram, List.flatMap_append]
  exact ((hstart.silent_append hrun).append_silent (performs_final hlast)).append
    (performs_tagReads o.mode (State.finished_pending _ _))

/-! ### The decrypt program -/

/-- SIGLEN counts a session's outputs, whatever it has done before (42_adapter.md R126). -/
theorem State.outputs_siglen (s : State) (done xs : List Block) (hn : s.siglen = siglenOf done)
    (hi : s.blkidx = BitVec.ofNat 64 done.length) :
    (s.outputs xs).2.siglen = siglenOf (done ++ (s.outputs xs).1) := by
  induction xs generalizing s done with
  | nil => rw [State.outputs, List.append_nil, hn]
  | cons x xs ih =>
    have hn' : (s.processed x).siglen = siglenOf (done ++ [(s.processed x).dout]) := by
      rw [siglenOf_concat, ← hn, ← hi]
      rfl
    have hi' :
        (s.processed x).blkidx = BitVec.ofNat 64 (done ++ [(s.processed x).dout]).length := by
      rw [List.length_append, List.length_singleton, BitVec.ofNat_add, ← hi]
      rfl
    rw [State.outputs, ih _ _ hn' hi', List.append_assoc, List.singleton_append]

theorem performs_tagWrites {a : State} (tag : Option Block) (hp : a.pending = none) :
    Performs (transactions (tagWrites tag)) a [] { a with din := tag.getD a.din } := by
  cases tag with
  | none => exact performs_nil a
  | some tag => exact performs_wr64 .din tag hp (.inl rfl)

/-- The decrypt program up to the read of the verdict. -/
def decryptAnswered (o : SessionOptions) (blocks : List Block) (tag : Option Block) :
    List Statement :=
  openSession o .decrypt (BitVec.ofNat 64 blocks.length) ++
    blocks.flatMap (fun x => processBlock x ++ transactions (List.replicate 8 (rd .byteOut))) ++
    transactions (tagWrites tag) ++ command .final ++ transactions (rd64 .siglen)

theorem decryptProgram_eq (o : SessionOptions) (blocks : List Block) (tag : Option Block) :
    decryptProgram o blocks tag =
      decryptAnswered o blocks tag ++ transactions (verdictReads o.mode) := by
  simp only [decryptProgram, decryptAnswered, transactions_append, List.append_assoc]

theorem performs_decryptAnswered {s d v : State} {o : SessionOptions} {ys xs : List Block}
    (tag : Option Block) (hp : s.pending = none)
    (hd : s.configured o .decrypt (BitVec.ofNat 64 ys.length) = d) (ha : Admissible .start d)
    (hlen : d.msglen.toNat = ys.length) (hxs : d.started.outputs ys = (xs, v)) :
    ∃ k, Performs (decryptAnswered o ys tag) s
      (byteAnswers (xs.flatMap blockBytes) ++ pairAnswers .siglen (siglenOf xs))
      (State.finished { v with rsmIdx := k } (tag.getD v.din)) := by
  have hin := hlen ▸ inSession_started ha
  obtain ⟨k, hrun⟩ := performs_decryptBlocks hin
  have hlast := hin.outputs
  have hsiglen := d.started.outputs_siglen [] ys (congrArg State.siglen d.started_frame)
    (congrArg State.blkidx d.started_frame)
  subst hd
  rw [hxs] at hrun hlast hsiglen
  have htag := performs_tagWrites (a := { v with rsmIdx := k }) tag hlast.pending
  have hfinal := performs_final (a := { v with rsmIdx := k, din := tag.getD v.din })
    { hlast with }
  have hread := performs_rd64 .siglen
    (State.finished_pending { v with rsmIdx := k } (tag.getD v.din))
  have hvalue : (State.finished { v with rsmIdx := k } (tag.getD v.din)).siglen = siglenOf xs :=
    (congrArg State.siglen (State.finished_frame _ _)).trans hsiglen
  rw [Pair.value, hvalue] at hread
  exact ⟨k, ((((performs_openSession hp ha).silent_append hrun).append_silent htag).append_silent
    hfinal).append hread⟩

/-- AUTH_VALID and AUTH_OK in STATUS (10_state.md R26). -/
theorem status_verdict {s : State} (hp : s.pending = none) :
    (s.readReg .status).rdata.getLsbD 4 = s.authValid ∧
      (s.readReg .status).rdata.getLsbD 5 = s.authOk := by
  rw [status_rdata hp]
  simp only [BitVec.getLsbD_append, BitVec.getLsbD_ofBool]
  simp

/-- The verdict the host reads last, in mode 6 alone (70_reset_and_hazards.md R190). -/
theorem promptRun_verdict {s : State} {mode : Mode} (hp : s.pending = none)
    (hv : mode = .gcm → s.authValid = true ∧ s.authOk = true) (seen : List ReadResult) :
    ∃ r, promptRun (transactions (verdictReads mode)) s = some r ∧ r.left = [] ∧
      answers r.seen = [] ∧ (mode = .gcm → verdictTrusted (seen ++ r.seen) = true) := by
  by_cases hm : mode = .gcm
  · obtain ⟨hvalid, hok⟩ := hv hm
    obtain ⟨t, hstep, hbits⟩ : ∃ t, step { s with inputs := [.hostPrompt (rd .status)] } = .next t ∧
        t.rdata.getLsbD 4 = true ∧ t.rdata.getLsbD 5 = true :=
      ⟨_, step_read_idle (r := .status) hp rfl,
        (status_verdict (s := s.accessed [] .prompt) hp).1.trans hvalid,
        (status_verdict (s := s.accessed [] .prompt) hp).2.trans hok⟩
    rw [verdictReads, if_pos hm]
    refine ⟨{ seen := [{ off := Reg.status.offset, data := t.rdata }], left := [], state := t },
      (runProgram_cons (m := .hostPrompt (rd .status)) rfl hstep []).trans rfl, rfl, rfl,
      fun _ => ?_⟩
    have hreads : readsOf .status (seen ++ [{ off := Reg.status.offset, data := t.rdata }]) =
        readsOf .status seen ++ [t.rdata] := readsOf_append _ _ _
    rw [verdictTrusted, hreads, List.getLastD_concat, hbits.1, hbits.2]
    rfl
  · rw [verdictReads, if_neg hm]
    exact ⟨_, rfl, rfl, rfl, fun h => absurd h hm⟩

/-! ### The runs of the two programs -/

theorem promptRun_encryptProgram {s e u : State} {o : SessionOptions} {m : List Byte}
    {ys : List Block} (hp : s.pending = none) (hcnt : s.segCnt = 0) (hbuf : s.segbuf = 0)
    (he : s.configured o .encrypt (BitVec.ofNat 64 (byteGroups m).length) = e)
    (ha : Admissible .start e) (hlen : e.msglen.toNat = (byteGroups m).length)
    (hys : e.started.outputs (segment m) = (ys, u)) :
    ∃ r, promptRun (encryptProgram o m) s = some r ∧ r.left = [] ∧
      r.state.elements = (u.finished u.din).elements ∧
      outputBlocks r.seen = ys ++ tagBlocks o.mode (u.finished u.din).dout := by
  obtain ⟨r, hr, hleft, hel, hseen⟩ :=
    performs_encryptProgram hp hcnt hbuf he ha hlen hys s rfl
  refine ⟨r, hr, hleft, hel, ?_⟩
  rw [outputBlocks, ← pairReads_answers, hseen, pairReads_pairAnswers]

theorem promptRun_decryptProgram {s f d v : State} {o : SessionOptions} {ys xs : List Block}
    {tag : Option Block} (hs : s.elements = f.elements) (hp : f.pending = none)
    (hd : f.configured o .decrypt (BitVec.ofNat 64 ys.length) = d) (ha : Admissible .start d)
    (hlen : d.msglen.toNat = ys.length) (hxs : d.started.outputs ys = (xs, v))
    (hwrap : 8 * xs.length < 2 ^ 64)
    (hv : o.mode = .gcm → ∀ k,
      (State.finished { v with rsmIdx := k } (tag.getD v.din)).authValid = true ∧
        (State.finished { v with rsmIdx := k } (tag.getD v.din)).authOk = true) :
    ∃ r, promptRun (decryptProgram o ys tag) s = some r ∧ r.left = [] ∧
      plaintextOf r.seen = reassemble xs .plaintext ∧
      (o.mode = .gcm → verdictTrusted r.seen = true) := by
  obtain ⟨k, hdecrypt⟩ := performs_decryptAnswered tag hp hd ha hlen hxs
  obtain ⟨r, hr, hleft, hel, hseen⟩ := hdecrypt s hs
  obtain ⟨r', hr', hleft', hseen', htrusted⟩ := promptRun_verdict (s := r.state) (mode := o.mode)
    ((pending_eq_of_elements hel).trans (State.finished_pending _ _))
    (fun hm => ⟨(congrArg State.authValid hel).trans (hv hm k).1,
      (congrArg State.authOk hel).trans (hv hm k).2⟩) r.seen
  refine ⟨{ r' with seen := r.seen ++ r'.seen }, ?_, hleft', ?_, htrusted⟩
  · rw [decryptProgram_eq]
    exact promptRun_append hr hleft hr'
  · have hall : answers (r.seen ++ r'.seen) = answers r.seen := by
      rw [answers, List.filter_append]
      exact (congrArg _ hseen').trans (List.append_nil _)
    rw [← plaintextOf_answers, hall, hseen, plaintextOf_blocks hwrap]

/-! ### The two sessions of a message -/

/-- The fields of CTRL under a session's options (10_state.md R27). -/
theorem ctrl_fields (o : SessionOptions) (d : Direction) :
    (o.ctrl d).extractLsb' 0 3 = o.mode.bits ∧ (o.ctrl d).getLsbD 3 = d.bit.getLsbD 0 ∧
      (o.ctrl d).getLsbD 4 = (tagSelect o.tagField).getLsbD 0 := by
  have h : ∀ (t dir : BitVec 1) (m : BitVec 3), (t ++ dir ++ m).extractLsb' 0 3 = m ∧
      (t ++ dir ++ m).getLsbD 3 = dir.getLsbD 0 ∧ (t ++ dir ++ m).getLsbD 4 = t.getLsbD 0 := by
    decide
  exact h _ _ _

/-- What a session leaves as it found it. -/
theorem State.session_frame (e : State) (xs : List Block) (b : Block) :
    (e.started.outputs xs).2.finished b =
      { (e.started.outputs xs).2.finished b with
        ctrl := e.ctrl, keyValid := e.keyValid, keys := e.keys, fpoly8 := e.fpoly8,
        fpoly16 := e.fpoly16, iv := e.iv, session := false, pending := none,
        hsub := e.started.hsub, zblk := e.started.zblk } := by
  have hlast := State.outputs_frame e.started xs
  have hstart := e.started_frame
  have hfinal := State.finished_frame (e.started.outputs xs).2 b
  rw [hfinal, hlast, hstart]

/-- After an encrypt session the same options set up the decrypt session that undoes it, and START
is admissible again. -/
theorem counterparts_configured {s e f : State} {o : SessionOptions} {n : Block} {xs : List Block}
    {b : Block} (he : s.configured o .encrypt n = e)
    (hf : (e.started.outputs xs).2.finished b = f) (ha : Admissible .start e) :
    Counterparts e (f.configured o .decrypt n) ∧ Admissible .start (f.configured o .decrypt n) := by
  obtain ⟨hmode, hdir, htag⟩ := ctrl_fields o .encrypt
  obtain ⟨hmode', hdir', htag'⟩ := ctrl_fields o .decrypt
  have hframe := e.session_frame xs b
  subst he
  rw [hf] at hframe
  obtain ⟨-, hkey, hpoly, htagpoly, hlegal⟩ := ha
  constructor
  · exact {
      encrypts := hdir
      decrypts := hdir'
      mode := hmode'.trans hmode.symm
      tagSelect := htag'.trans htag.symm
      keys := (congrArg State.keys hframe :)
      fpoly8 := (congrArg State.fpoly8 hframe :)
      fpoly16 := (congrArg State.fpoly16 hframe :)
      iv := by
        have hiv : f.iv = o.iv.getD s.iv := (congrArg State.iv hframe :)
        show o.iv.getD f.iv = o.iv.getD s.iv
        rw [hiv]
        cases o.iv <;> rfl
      msglen := rfl
      subkeys := fun hm => by
        have hplain := startEffect_plain hm
        have hh : f.hsub = (startEffect (s.configured o .encrypt n)).hsub :=
          (congrArg State.hsub hframe :)
        have hz : f.zblk = (startEffect (s.configured o .encrypt n)).zblk :=
          (congrArg State.zblk hframe :)
        rw [hplain] at hh hz
        exact ⟨hh, hz⟩ }
  · have h8 : f.fpoly8 = s.fpoly8 := (congrArg State.fpoly8 hframe :)
    have h16 : f.fpoly16 = s.fpoly16 := (congrArg State.fpoly16 hframe :)
    refine ⟨(congrArg State.session hframe :), (congrArg State.keyValid hframe).trans hkey,
      (congrArg (·.getLsbD 16) h16).trans hpoly, ?_,
      fun h7 => hlegal (hmode.trans (hmode'.symm.trans h7))⟩
    rintro ⟨hm, ht, hp⟩
    exact htagpoly ⟨hmode.trans (hmode'.symm.trans hm), htag.trans (htag'.symm.trans ht),
      (congrArg (·.getLsbD 8) h8).symm.trans hp⟩

/-- The texts carry the outputs and, in mode 6, the tag (42_adapter.md R128, R129). -/
theorem parseReceived_sent (mode : Mode) (ys : List Block) (t : Block) :
    parseReceived mode (ciphertextHex (ys ++ tagBlocks mode t)) =
      .ok (ys, (tagBlocks mode t).head?) := by
  by_cases hm : mode = .gcm
  · subst hm
    exact parseReceived_ciphertextHex_gcm ys t
  · rw [tagBlocks, if_neg hm, List.append_nil]
    exact parseReceived_ciphertextHex hm ys

theorem State.outputs_ctrl (e : State) (xs : List Block) :
    (e.started.outputs xs).2.ctrl = e.ctrl :=
  (congrArg State.ctrl (State.outputs_frame _ xs)).trans (congrArg State.ctrl e.started_frame :)

theorem Mirrored.rsmIdx {e d : State} (h : Mirrored e d) (k : Fin 9) :
    Mirrored e { d with rsmIdx := k } :=
  { h with }

/-- The verdict on the tag as the host sends it on, wherever the reassembler stands. -/
theorem Mirrored.sent_verdict {u v : State} {mode : Mode} (h : Mirrored u v)
    (hctrl : u.ctrl.extractLsb' 0 3 = mode.bits) (hm : mode = .gcm) (k : Fin 9) :
    let tag := (tagBlocks mode (u.finished u.din).dout).head?.getD v.din
    (State.finished { v with rsmIdx := k } tag).authValid = true ∧
      (State.finished { v with rsmIdx := k } tag).authOk = true := by
  rw [tagBlocks, if_pos hm]
  exact (h.rsmIdx k).verdict (hctrl.trans (congrArg Mode.bits hm)) u.din

end Sys2Proof.Machine

namespace Sys2Proof.Proofs

open Sys2Proof.Machine Sys2Proof.Safety

/-- Settles O60: the two programs are an encrypt session and a decrypt session of the same options,
which mirror each other, and the host's reads are their outputs. -/
theorem messageRoundTrip : Obligations.MessageRoundTrip := by
  intro s o m hp hcnt hbuf hlen ha
  obtain ⟨e, he⟩ : ∃ e, s.configured o .encrypt (BitVec.ofNat 64 (byteGroups m).length) = e :=
    ⟨_, rfl⟩
  have hstart : Admissible .start e := he ▸ ha
  have hmsglen : e.msglen.toNat = (byteGroups m).length := by
    rw [← he]
    exact Nat.mod_eq_of_lt (by omega)
  obtain ⟨⟨ys, u⟩, hys⟩ : ∃ out, e.started.outputs (Machine.segment m) = out := ⟨_, rfl⟩
  obtain ⟨f, hf⟩ : ∃ f, u.finished u.din = f := ⟨_, rfl⟩
  have hlength : (Machine.segment m).length = (byteGroups m).length := List.length_map _
  have hcount : ys.length = (byteGroups m).length := by
    have h := State.outputs_length e.started (Machine.segment m)
    rwa [hys, hlength] at h
  obtain ⟨r, hr, hleft, hel, hsent⟩ :=
    promptRun_encryptProgram hp hcnt hbuf he hstart hmsglen hys
  obtain ⟨d, hd⟩ : ∃ d, f.configured o .decrypt (BitVec.ofNat 64 ys.length) = d := ⟨_, rfl⟩
  obtain ⟨hpair, hstart'⟩ : Counterparts e d ∧ Admissible .start d := by
    rw [← hd, hcount]
    exact counterparts_configured he (by rw [hys]; exact hf) hstart
  obtain ⟨v, hxs, hmirror⟩ : ∃ v, d.started.outputs ys = (Machine.segment m, v) ∧ Mirrored u v := by
    obtain ⟨hback, hmirror⟩ :=
      hpair.started.outputs (inSession_started hstart).mode (Machine.segment m)
    rw [hys] at hback hmirror
    exact ⟨_, Prod.ext hback rfl, hmirror⟩
  have hctrl : u.ctrl.extractLsb' 0 3 = o.mode.bits := by
    have h := State.outputs_ctrl e (Machine.segment m)
    rw [hys, ← he] at h
    rw [h]
    exact (ctrl_fields o .encrypt).1
  have hverdict := hmirror.sent_verdict hctrl
  rw [hf] at hel hsent hverdict
  obtain ⟨r', hr', hleft', hplain, htrusted⟩ := promptRun_decryptProgram hel
    (hf ▸ State.finished_pending _ _) hd hstart' (hpair.msglen ▸ hmsglen.trans hcount.symm) hxs
    (by rw [hlength]; exact hlen) hverdict
  refine ⟨r, r', ys, (tagBlocks o.mode f.dout).head?, hr, hleft,
    hcount.trans (byteGroups_length m), ?_, hr', hleft', ?_, htrusted⟩
  · rw [hsent, parseReceived_sent]
  · rw [hplain, reassemble, flatMap_blockBytes_segment, stripTrailingZeros_append_replicate]

end Sys2Proof.Proofs
end
